-- ==== Sys2Proof/Word.lean ====
section
/-!
DEFINITION. The machine's words: the 16-bit word and the 15-bit logical address (20_memory R100, R101), the numbers of
accumulators and of maps, and the four-place register file `Quad` that holds AC0 to AC3, FPAC0 to FPAC3 and the user and
data channel maps A to D (10_state R21, R25, R60).
-/

namespace Sys2Proof

/-- One word of memory or of a fixed-point accumulator; the manual's bit 0 is the most significant (20_memory R106). -/
abbrev Word := BitVec 16

/-- A logical word address, modulo 2^15 (20_memory R100, R101). -/
abbrev Addr := BitVec 15

/-- A double word: the FPSR, or a fixed-point pair (10_state R26, 20_memory R107). -/
abbrev DWord := BitVec 32

/-- A floating-point accumulator (10_state R25). -/
abbrev QWord := BitVec 64

/-- The number of one of four accumulators (30_encoding R177). -/
abbrev AcNo := BitVec 2

/-- The four places of a register file that has four like members. -/
structure Quad (α : Type) where
  q0 : α
  q1 : α
  q2 : α
  q3 : α
  deriving DecidableEq, Repr

namespace Quad

/-- Four copies of one value. -/
def all {α : Type} (x : α) : Quad α := ⟨x, x, x, x⟩

/-- The member numbered `i`. -/
def get {α : Type} (q : Quad α) (i : AcNo) : α :=
  match i.toNat with
  | 0 => q.q0
  | 1 => q.q1
  | 2 => q.q2
  | _ => q.q3

/-- The file with member `i` replaced. -/
def set {α : Type} (q : Quad α) (i : AcNo) (x : α) : Quad α :=
  match i.toNat with
  | 0 => { q with q0 := x }
  | 1 => { q with q1 := x }
  | 2 => { q with q2 := x }
  | _ => { q with q3 := x }

end Quad

end Sys2Proof
end

