-- ==== Sys2Proof/Config.lean ====
section
/-!
DEFINITION. What one configuration of the machine fixes: the host parameters of 10_state R43 and 00_scope R12, R13, held as
plain data in the state and written by no step, and the free values, which the manual leaves open and which are opaque
constants here (93_implementation_defined part 1; log 14).
-/

namespace Sys2Proof.Config

/-- Installed memory: one to four boards of 128 Kbytes (00_scope R12, 20_memory R103). -/
inductive MemBoards where
  | one
  | two
  | three
  | four
  deriving DecidableEq, Repr

/-- `MEM_WORDS`: 65,536 words a board (20_memory R103). -/
def MemBoards.words : MemBoards → Nat
  | .one => 65536
  | .two => 131072
  | .three => 196608
  | .four => 262144

/-- The host parameters of one configuration (10_state R43). -/
structure HostConfig where
  /-- `MEM_WORDS` as a number of boards. -/
  boards : MemBoards
  /-- `INT_PRIORITY`: the device codes, closest to the processor first; a code not listed comes after all listed ones in
  ascending order (60_exceptions R624, 92_eei_decisions OPEN-2). -/
  intPriority : List (BitVec 6)
  /-- The Halt Dispatch jumper, CPUSTAT bit 6 (46_io R529). -/
  haltDispatch : Bool
  /-- APL register bit 0: the automatic load is by data channel (46_io R558). -/
  aplDch : Bool
  /-- APL register bit 2: one-minute delay (46_io R558). -/
  aplDly : Bool
  /-- APL register bits 10-15: the device of the automatic load (46_io R558). -/
  aplCode : BitVec 6
  /-- The front panel lock switch, APL register bit 1 (46_io R558). -/
  locked : Bool
  /-- The Break function is not disabled by its jumper (70_reset R711). -/
  breakEnabled : Bool
  /-- Battery backup is present (10_state R43, 60_exceptions R660). -/
  battery : Bool
  /-- `LINE_HZ` (46_io R549); read by no rule of the model, which takes clock ticks as inputs. -/
  lineHz : Nat
  /-- `PIT_TICK` in microseconds (46_io R551); read by no rule of the model, which takes timer ticks as inputs. -/
  pitTick : Nat
  /-- `PL_START`: where execution starts after a programmed-I/O load (70_reset R701, 92_eei_decisions OPEN-3). -/
  plStart : Addr
  /-- Whether a programmed-I/O load stores its count word (70_reset R701, 92_eei_decisions OPEN-3). -/
  plStoresCount : Bool
  deriving DecidableEq, Repr

/-- The configuration of `State.reset`: the largest memory the manual states, and the defaults of OPEN-1 to OPEN-3.
DESIGN CHOICE, unsafe (log 12). -/
def HostConfig.default : HostConfig where
  boards := .four
  intPriority := []
  haltDispatch := false
  aplDch := false
  aplDly := false
  aplCode := 0
  locked := false
  breakEnabled := true
  battery := false
  lineHz := 60
  pitTick := 100
  plStart := 0o100
  plStoresCount := false

/-- The stream of free values: what a result is where the manual says it is undefined or gives none. Nothing is known of it
(log 14). Applied to the counter `State.freeIdx`, it gives a fresh value at each use. -/
opaque free64 : Nat → BitVec 64

/-- Which of the three codes of MEM TYP a machine with three memory boards shows, a size the table of 46_io R529 does not
list; the code 00 does not occur (93_implementation_defined part 2; log 40). -/
opaque memTypeThree : Fin 3

/-- MEM TYP, CPUSTAT bits 12-13 (46_io R529): 01 = 256 Kbytes, 10 = 128 Kbytes, 11 = 512 Kbytes. -/
def MemBoards.memType : MemBoards → BitVec 2
  | .one => 2
  | .two => 1
  | .three => BitVec.ofNat 2 (memTypeThree.val + 1)
  | .four => 3

/-- The physical page logical page 31 reaches after power-up and after an I/O reset (47_map R575, R600). -/
def page31Reset : BitVec 10 := 31

/-- The pointer reads after which the model gives up an endless indirection chain (20_memory R115; log 18). A chain that
ends reads each of the 32,768 locations at most twice: once before and once after a pending user enable takes effect. -/
def chainFuel : Nat := 65538

end Sys2Proof.Config
end

