-- ==== Sys2Proof/Syntax.lean ====
section
/-!
DEFINITION. The instructions: one constructor for each row of spec/opcode_table.json, in the table's order, with the
operand fields of 30_encoding R162 to R176 and 46_io R501. A two-word instruction carries its second word's fields.
-/

namespace Sys2Proof

/-- The two index bits of an address field (20_memory R112, R113). -/
inductive Index where
  | abs
  | pc
  | ac2
  | ac3
  deriving DecidableEq, Repr

/-- The short address field: indirect bit, index bits, 8-bit displacement (20_memory R110). -/
structure ShortAddr where
  ind : Bool
  idx : Index
  disp : BitVec 8
  deriving DecidableEq, Repr

/-- The extended address field: index bits of the first word, indirect bit and 15-bit displacement of the second
(20_memory R111). -/
structure ExtAddr where
  ind : Bool
  idx : Index
  disp : BitVec 15
  deriving DecidableEq, Repr

/-- SH, the shift field of the ALC format (30_encoding R164). -/
inductive Shift where
  | none
  | left
  | right
  | swap
  deriving DecidableEq, Repr

/-- C, the carry field of the ALC format (30_encoding R164). -/
inductive CarryInit where
  | current
  | zero
  | one
  | complement
  deriving DecidableEq, Repr

/-- SKIP, the skip field of the ALC format (30_encoding R164). -/
inductive Skip where
  | never
  | always
  | szc
  | snc
  | szr
  | snr
  | sez
  | sbn
  deriving DecidableEq, Repr

/-- The fields of the ALC format other than the operation (30_encoding R164). -/
structure AlcOps where
  acs : AcNo
  acd : AcNo
  shift : Shift
  carry : CarryInit
  noLoad : Bool
  skip : Skip
  deriving DecidableEq, Repr

/-- The f field of the I/O format (46_io R504). -/
inductive IoFlag where
  | none
  | start
  | clear
  | pulse
  deriving DecidableEq, Repr

/-- The t field of SKP (46_io R505). -/
inductive SkipTest where
  | bn
  | bz
  | dn
  | dz
  deriving DecidableEq, Repr

/-- Every instruction, one constructor a row of the opcode table. The fields named `n` of `adi`, `sbi`, `hxl`, `hxr`, `dhxl`
and `dhxr` hold N = n - 1 (30_encoding R165). -/
inductive Instr where
  | jmp (ea : ShortAddr)
  | jsr (ea : ShortAddr)
  | isz (ea : ShortAddr)
  | dsz (ea : ShortAddr)
  | lda (ac : AcNo) (ea : ShortAddr)
  | sta (ac : AcNo) (ea : ShortAddr)
  | lef (ac : AcNo) (ea : ShortAddr)
  | com (o : AlcOps)
  | neg (o : AlcOps)
  | mov (o : AlcOps)
  | inc (o : AlcOps)
  | adc (o : AlcOps)
  | sub (o : AlcOps)
  | add (o : AlcOps)
  | and (o : AlcOps)
  | adi (n : BitVec 2) (ac : AcNo)
  | sbi (n : BitVec 2) (ac : AcNo)
  | dad (acs acd : AcNo)
  | dsb (acs acd : AcNo)
  | ior (acs acd : AcNo)
  | xor (acs acd : AcNo)
  | anc (acs acd : AcNo)
  | xch (acs acd : AcNo)
  | sgt (acs acd : AcNo)
  | sge (acs acd : AcNo)
  | lsh (acs acd : AcNo)
  | dlsh (acs acd : AcNo)
  | hxl (n : BitVec 2) (ac : AcNo)
  | hxr (n : BitVec 2) (ac : AcNo)
  | dhxl (n : BitVec 2) (ac : AcNo)
  | dhxr (n : BitVec 2) (ac : AcNo)
  | bto (acs acd : AcNo)
  | btz (acs acd : AcNo)
  | szb (acs acd : AcNo)
  | szbo (acs acd : AcNo)
  | lob (acs acd : AcNo)
  | lrb (acs acd : AcNo)
  | cob (acs acd : AcNo)
  | ldb (acs acd : AcNo)
  | stb (acs acd : AcNo)
  | psh (acs acd : AcNo)
  | pop (acs acd : AcNo)
  | syc (acs acd : AcNo)
  | lmp
  | pshr
  | popb
  | bam
  | popj
  | rtn
  | blm
  | divx
  | mul
  | muls
  | div
  | divs
  | save (i : Word)
  | rstr
  | xop (acs acd : AcNo) (op : BitVec 5)
  | xop1 (acs acd : AcNo) (op : BitVec 4)
  | ejmp (ea : ExtAddr)
  | ejsr (ea : ExtAddr)
  | eisz (ea : ExtAddr)
  | edsz (ea : ExtAddr)
  | pshj (ea : ExtAddr)
  | elda (ac : AcNo) (ea : ExtAddr)
  | esta (ac : AcNo) (ea : ExtAddr)
  | elef (ac : AcNo) (ea : ExtAddr)
  | eldb (ac : AcNo) (idx : Index) (disp : Word)
  | estb (ac : AcNo) (idx : Index) (disp : Word)
  | dspa (ac : AcNo) (ea : ExtAddr)
  | clm (acs acd : AcNo)
  | snb (acs acd : AcNo)
  | msp (ac : AcNo)
  | xct (ac : AcNo)
  | hlv (ac : AcNo)
  | iori (ac : AcNo) (i : Word)
  | xori (ac : AcNo) (i : Word)
  | andi (ac : AcNo) (i : Word)
  | addi (ac : AcNo) (i : Word)
  | fas (facs facd : AcNo)
  | fad (facs facd : AcNo)
  | fss (facs facd : AcNo)
  | fsd (facs facd : AcNo)
  | fms (facs facd : AcNo)
  | fmd (facs facd : AcNo)
  | fds (facs facd : AcNo)
  | fdd (facs facd : AcNo)
  | fams (fac : AcNo) (ea : ExtAddr)
  | famd (fac : AcNo) (ea : ExtAddr)
  | fsms (fac : AcNo) (ea : ExtAddr)
  | fsmd (fac : AcNo) (ea : ExtAddr)
  | fmms (fac : AcNo) (ea : ExtAddr)
  | fmmd (fac : AcNo) (ea : ExtAddr)
  | fdms (fac : AcNo) (ea : ExtAddr)
  | fdmd (fac : AcNo) (ea : ExtAddr)
  | flds (fac : AcNo) (ea : ExtAddr)
  | fldd (fac : AcNo) (ea : ExtAddr)
  | fsts (fac : AcNo) (ea : ExtAddr)
  | fstd (fac : AcNo) (ea : ExtAddr)
  | flmd (fac : AcNo) (ea : ExtAddr)
  | ffmd (fac : AcNo) (ea : ExtAddr)
  | flas (ac fac : AcNo)
  | ffas (ac fac : AcNo)
  | fnom (fac : AcNo)
  | frh (fac : AcNo)
  | fab (fac : AcNo)
  | fneg (fac : AcNo)
  | fscal (fac : AcNo)
  | fexp (fac : AcNo)
  | fint (fac : AcNo)
  | fhlv (fac : AcNo)
  | fns
  | fsa
  | fseq
  | fsne
  | fslt
  | fsge
  | fsle
  | fsgt
  | fsnm
  | fsnd
  | fsnu
  | fsnud
  | fsno
  | fsnod
  | fsnuo
  | fsner
  | fsst (ea : ExtAddr)
  | flst (ea : ExtAddr)
  | fte
  | ftd
  | fcle
  | fpsh
  | fpop
  | fcmp (facs facd : AcNo)
  | fmov (facs facd : AcNo)
  | cmv
  | cmp
  | ctr
  | cmt
  | nio (ac : AcNo) (f : IoFlag) (dev : BitVec 6)
  | dia (ac : AcNo) (f : IoFlag) (dev : BitVec 6)
  | doa (ac : AcNo) (f : IoFlag) (dev : BitVec 6)
  | dib (ac : AcNo) (f : IoFlag) (dev : BitVec 6)
  | dob (ac : AcNo) (f : IoFlag) (dev : BitVec 6)
  | dic (ac : AcNo) (f : IoFlag) (dev : BitVec 6)
  | doc (ac : AcNo) (f : IoFlag) (dev : BitVec 6)
  | skp (t : SkipTest) (dev : BitVec 6)
  | dis (ac : AcNo) (f : IoFlag) (dev : BitVec 6)
  | inten (ac : AcNo)
  | intds (ac : AcNo)
  | nioCpu (ac : AcNo) (f : IoFlag)
  | reads (ac : AcNo) (f : IoFlag)
  | doaCpu (ac : AcNo) (f : IoFlag)
  | doapCpu (ac : AcNo)
  | inta (ac : AcNo) (f : IoFlag)
  | vct (stackChange : Bool) (table : Addr)
  | msko (ac : AcNo) (f : IoFlag)
  | iorst (ac : AcNo) (f : IoFlag)
  | halta (ac : AcNo) (f : IoFlag)
  | skpCpu (t : SkipTest)
  | disCpu (ac : AcNo) (f : IoFlag)
  | diaMap (ac : AcNo) (f : IoFlag)
  | doaMap (ac : AcNo) (f : IoFlag)
  | dobMap (ac : AcNo) (f : IoFlag)
  | dicMap (ac : AcNo) (f : IoFlag)
  | docMap (ac : AcNo) (f : IoFlag)
  | niopMap (ac : AcNo)
  | nioMap (ac : AcNo) (f : IoFlag)
  | dibMap (ac : AcNo) (f : IoFlag)
  | disMap (ac : AcNo) (f : IoFlag)
  | diaTti (ac : AcNo) (f : IoFlag)
  | doaTto (ac : AcNo) (f : IoFlag)
  | doaRtc (ac : AcNo) (f : IoFlag)
  | diaPit (ac : AcNo) (f : IoFlag)
  | doaPit (ac : AcNo) (f : IoFlag)
  | doaErcc (ac : AcNo) (f : IoFlag)
  | diaErcc (ac : AcNo) (f : IoFlag)
  | dibErcc (ac : AcNo) (f : IoFlag)
  | diaApl (ac : AcNo) (f : IoFlag)
  | doaApl (ac : AcNo) (f : IoFlag)
  deriving DecidableEq, Repr

end Sys2Proof
end

