-- ==== Sys2Proof/Machine/State.lean ====
section
/-!
DEFINITION. The state of the machine as plain data: every element of 10_state, the registers of the devices on the processor
board, the host parameters, and the model's own fields (INVENTORY.md, State). The state after reset, and why a step can
stop.
-/

namespace Sys2Proof.Machine

open Sys2Proof.Config (HostConfig page31Reset)

/-! ## Registers in groups -/

/-- The stored fields of the floating-point status register (10_state R26). ANY is the OR of OVF, UNF, DVZ and MOF; bits 8,
10, 11 and 16 read 0; FPMOD reads 1000 binary. -/
structure Fpsr where
  ovf : Bool
  unf : Bool
  dvz : Bool
  mof : Bool
  te : Bool
  z : Bool
  n : Bool
  res : Bool
  fppc : Addr
  deriving DecidableEq, Repr

/-- The hold of interrupt recognition after ION goes from 0 to 1 (10_state R31, 46_io R522): `held` for the next
instruction, `last` for one instruction more after a one-cycle one. -/
inductive IonHold where
  | none
  | held
  | last
  deriving DecidableEq, Repr

/-- The console-entry causes of CPUSTAT: bits 3, 4, 5, 8, 10, 15 (46_io R529). -/
structure ConsoleBits where
  brk : Bool
  pup : Bool
  hlt : Bool
  pl : Bool
  trp : Bool
  dg : Bool
  deriving DecidableEq, Repr

/-- What a self-test finds wrong, by its error flag (70_reset R718). -/
inductive SelfTestError where
  /-- `I`. -/
  | ioFault
  /-- `H`. -/
  | consoleMemory
  /-- `M`. -/
  | userMemory
  /-- `E`. -/
  | ercc
  deriving DecidableEq, Repr

/-- What the processor is doing (10_state R35, 60_exceptions R661, 70_reset R700 to R704, R718). `running` is RUN = 1. -/
inductive RunState where
  | running
  /-- Hard-halted: left through the console switches or power only. -/
  | halted
  /-- In the virtual console. -/
  | console
  /-- In the virtual console, a self-test having displayed an error flag: the BREAK key continues, with these errors to
  follow (70_reset R704, R718). -/
  | testError (rest : List SelfTestError)
  /-- Waiting for the bytes of a programmed-I/O load from this device; these have come so far. -/
  | loadPio (code : BitVec 6) (got : List (BitVec 8))
  /-- Looping at location 377 during a data channel load from this device. -/
  | loadDch (code : BitVec 6)
  /-- Power is off. -/
  | off
  deriving DecidableEq, Repr

/-- The asynchronous line receiver (46_io R545). -/
structure Tti where
  busy : Bool
  done : Bool
  brk : Bool
  overrun : Bool
  parity : Bool
  /-- The output of the data terminal ready register, low after an I/O reset. What raises it the manual does not say, and
  nothing does here (46_io R545; log 53). -/
  dtr : Bool
  rbuf : BitVec 8
  deriving DecidableEq, Repr

/-- The asynchronous line transmitter (46_io R547). -/
structure Tto where
  busy : Bool
  done : Bool
  tbuf : BitVec 8
  deriving DecidableEq, Repr

/-- The real-time clock (46_io R549). -/
structure Rtc where
  busy : Bool
  done : Bool
  fs : BitVec 2
  deriving DecidableEq, Repr

/-- The programmable interval timer (46_io R551). -/
structure Pit where
  busy : Bool
  done : Bool
  icr : Word
  cnt : Word
  deriving DecidableEq, Repr

/-- Error checking and correction (46_io R554 to R557): mode bits 13-15 of the last DOA ERCC, fault address and fault code. -/
structure Ercc where
  done : Bool
  irq : Bool
  mode : BitVec 3
  faultAddr : BitVec 20
  faultCode : BitVec 6
  deriving DecidableEq, Repr

/-- Which device of Appendix A a controller on the external bus is, as far as its mask bit goes (46_io R517 and its
footnotes; log 35). -/
inductive ExtKind where
  /-- The device of the one row of the table for its code. -/
  | listed
  /-- The cassette tape, one of the two rows of code 34: mask bit 10. -/
  | cas
  /-- The multiline asynchronous controller MX1, the other row of code 34: mask bit 11. -/
  | mx1
  /-- DPI or SCR: mask bit 8 at any unused even code from 40 octal up. -/
  | dpi
  /-- DPO or SCT: mask bit 8 at any unused odd code from 41 octal up. -/
  | dpo
  /-- DCU: mask bit 4 at any unused code. -/
  | dcu
  /-- The host to IOP interface: mask bit 5; its micro interrupts, which the flag says its Done stands for, are not
  maskable. -/
  | iop (micro : Bool)
  /-- A device whose row is lost or unreadable: the host knows its mask bit, if it has one. -/
  | other (maskBit : Option (BitVec 4))
  deriving DecidableEq, Repr

/-- A controller on the external I/O bus, as the host supplies it (10_state R42, 46_io R500, R503): its flags, its input and
output buffers, and bits 2-15 of its status word. -/
structure ExtDevice where
  code : BitVec 6
  kind : ExtKind
  busy : Bool
  done : Bool
  inA : Word
  inB : Word
  inC : Word
  outA : Word
  outB : Word
  outC : Word
  status : BitVec 14
  deriving DecidableEq, Repr

/-- A word of main memory whose stored bits are in error until it is written with its check code again (46_io R554, R555):
its physical address, the bits of the word and of its check code that are inverted, numbered from the most significant, and
the fault code its check yields (46_io R557). The word without the error is the one in `State.mem`. -/
structure MemFault where
  addr : BitVec 20
  data : Word
  check : BitVec 6
  code : BitVec 6
  deriving DecidableEq, Repr

/-- One word transfer of the data channel through data channel map `map`, by a controller (46_io R516, 47_map R590). -/
inductive DchRequest where
  | read (map : AcNo) (a : Addr)
  | write (map : AcNo) (a : Addr) (v : Word)
  deriving DecidableEq, Repr

/-- One entry of a user or data channel map (47_map R572). -/
structure MapEntry where
  wp : Bool
  ppage : BitVec 10
  deriving DecidableEq, Repr

/-- One map: an entry for each of the 32 logical pages (47_map R571). -/
abbrev PageMap := Vector MapEntry 32

/-- The fields of the MAP status register (47_map R571): user-map select, map select, the user's modes, data channel mapping,
user enable as written, and the read-only fault, single-cycle and user-mode bits. -/
structure MapStatus where
  nme : BitVec 2
  mapsel : BitVec 3
  lef : Bool
  iop : Bool
  wpe : Bool
  indp : Bool
  dch : Bool
  ue : Bool
  fIo : Bool
  fWp : Bool
  fInd : Bool
  sc : Bool
  um : Bool
  deriving DecidableEq, Repr

/-! ## What the host does -/

/-- What an operator does through the virtual console (70_reset R710 to R719, 47_map R602): each reads or writes
architectural state while the processor is in the console. -/
inductive ConsoleAction where
  /-- Internal cells 0 to 3. -/
  | setAc (ac : AcNo) (v : Word)
  /-- Internal cell 4. -/
  | setPc (a : Addr)
  /-- Internal cell 5. -/
  | setCarry (c : Bool)
  /-- Internal cell 10. -/
  | setVcr (v : Word)
  /-- Internal cell 12. -/
  | setFpsr (v : Word)
  /-- Internal cell 13. -/
  | setFppc (a : Addr)
  /-- `nF`. -/
  | setFpac (fac : AcNo) (v : QWord)
  /-- `expr/`: a memory location under the current setting of the user MAP. -/
  | deposit (a : Addr) (v : Word)
  /-- `nM`. -/
  | setUserEntry (page : BitVec 5) (e : MapEntry)
  /-- `nC`, the entry of the data channel map the host names: no rule says which map is the selected one (47_map R602; log
  38). -/
  | setDchEntry (map : AcNo) (page : BitVec 5) (e : MapEntry)
  /-- `U`, with the MAP status typed into internal cell 11 if one was; a user map, or none for MAP off. -/
  | selectMap (status : Option Word) (user : Option AcNo)
  /-- `I`. -/
  | ioReset
  /-- Control-G. -/
  | selfTest
  /-- Control-V. -/
  | memoryTest
  /-- `P`. -/
  | proceed
  /-- `exprR`. -/
  | runAt (a : Addr)
  /-- `O`. -/
  | singleStep
  /-- `nL`. -/
  | loadPio (code : BitVec 6)
  /-- `nH`. -/
  | loadDch (code : BitVec 6)
  deriving DecidableEq, Repr

/-- One host input (46_io R560); `cpu` lets the processor take one step. -/
inductive HostInput where
  | cpu
  | ttiChar (c : BitVec 8)
  | ttiBreak
  | ttiParityError
  | ttoSent
  | rtcTick
  | pitTick
  | powerFailing
  | powerLost
  /-- Power returns; the flag says that the batteries held the memory. -/
  | powerRestored (memoryHeld : Bool)
  | breakKey
  | resetSwitch
  | prLoadSwitch
  /-- A word of memory goes bad, in these bits of the word and of its check code, in place of an error it may have had (46_io
  R554). -/
  | memError (addr : BitVec 20) (data : Word) (check : BitVec 6)
  /-- A refresh has sniffed all of memory (46_io R554, R555). -/
  | sniffed
  /-- A controller is installed or its flags and buffers change. -/
  | extDevice (d : ExtDevice)
  /-- The next self-test will find this error too, after those already announced (70_reset R680, R718; log 38). -/
  | selfTestError (e : SelfTestError)
  /-- A data channel transfer between two steps of the processor. -/
  | dch (r : DchRequest)
  /-- Data channel transfers for the processor's coming memory references: before each one the transfers of one list
  (60_exceptions R625, 20_memory R146). -/
  | dchInside (due : List (List DchRequest))
  /-- The next bytes a programmed-I/O load device supplies. -/
  | loadBytes (bytes : List (BitVec 8))
  | console (a : ConsoleAction)
  deriving DecidableEq, Repr

/-- An output buffer of an external device. -/
inductive OutBuffer where
  | a
  | b
  | c
  deriving DecidableEq, Repr

/-- One thing the machine sends out (46_io R560). -/
inductive HostOutput where
  /-- A character started on the line (46_io R548). -/
  | ttoChar (b : BitVec 8)
  /-- A word written to an external device's buffer. -/
  | extData (dev : BitVec 6) (buf : OutBuffer) (v : Word)
  /-- A flag command to an external device. -/
  | extFlag (dev : BitVec 6) (f : IoFlag)
  /-- An I/O reset reached the external controllers. -/
  | ioReset
  /-- The word a data channel read delivered. -/
  | dchData (v : Word)
  /-- The error flag a self-test displays (70_reset R680, R718). -/
  | selfTestFlag (e : SelfTestError)
  deriving DecidableEq, Repr

/-! ## The state -/

/-- The state of the machine. -/
structure State where
  /-- The host parameters (10_state R43). -/
  cfg : HostConfig
  /-- AC0 to AC3 (10_state R21). -/
  ac : Quad Word
  /-- CRY (10_state R22). -/
  cry : Bool
  /-- The program counter (10_state R23). -/
  pc : Addr
  /-- FPAC0 to FPAC3 (10_state R25). -/
  fpac : Quad QWord
  /-- FPSR (10_state R26). -/
  fpsr : Fpsr
  /-- ION (10_state R30). -/
  ion : Bool
  /-- ION_HOLD (10_state R31). -/
  ionHold : IonHold
  /-- MASK (10_state R32). -/
  mask : Word
  /-- The console-entry causes of CPUSTAT (10_state R33). -/
  con : ConsoleBits
  /-- CPUSTAT bit 11, SUR (46_io R529, 60_exceptions R660). -/
  survived : Bool
  /-- VCR (10_state R34). -/
  vcr : Word
  /-- RUN (10_state R35). -/
  runState : RunState
  /-- PF (10_state R36). -/
  pf : Bool
  tti : Tti
  tto : Tto
  rtc : Rtc
  pit : Pit
  ercc : Ercc
  /-- LGT of the local output register: the level of the front panel run light, which the host reads here (46_io R558,
  R560). -/
  runLight : Bool
  /-- The controllers on the external bus (10_state R42). -/
  ext : List ExtDevice
  /-- Main memory, its bytes at 2 * word and 2 * word + 1 (10_state R50, 20_memory R106). -/
  mem : List Host.Cell
  /-- The words of main memory in error, at most one entry a word (46_io R554; log 45). -/
  memFaults : List MemFault
  /-- UMAP A to D (10_state R60). -/
  umap : Quad PageMap
  /-- DMAP A to D (10_state R60). -/
  dmap : Quad PageMap
  /-- The MAP status fields (10_state R61, R63, R64). -/
  ms : MapStatus
  /-- MAP_ON (10_state R62). -/
  mapOn : Bool
  /-- MAP_PENDING (10_state R67). -/
  mapPending : Bool
  /-- SC_PENDING (10_state R67). -/
  scPending : Bool
  /-- P31 (10_state R65). -/
  p31 : BitVec 10
  /-- PCHK.lpage (10_state R66). -/
  pchk : BitVec 5
  /-- The model's own: the word XCT took and goes on executing at its own address, an XCT, or a BLM or LMP that has items
  left (45_program_flow R480; log 20). -/
  xct : Option Word
  /-- The model's own: the counter of free values (log 15). -/
  freeIdx : Nat
  /-- The model's own: the data channel transfers still to fall before the coming memory references of the processor, a list
  for each reference (60_exceptions R625, 20_memory R146; log 48). -/
  dchDue : List (List DchRequest)
  /-- The model's own: the errors the next self-test will find (70_reset R680, R704, R718; log 38). -/
  testErrors : List SelfTestError
  /-- The model's own: the host inputs still to come (46_io R560; log 16). -/
  inputs : List HostInput
  /-- The model's own: what has been sent out, newest first (46_io R560; log 17). -/
  outputs : List HostOutput
  deriving DecidableEq, Repr

namespace State

/-- A map whose 32 entries are all zero. -/
def clearMap : PageMap := Vector.replicate 32 ⟨false, 0⟩

/-- The machine right after power-up, before the virtual console starts (70_reset R680, R681; 10_state R95): halted, the
power-up bit set, no device requesting, MAP off. What the manual leaves open has the value its log entry names (log 1 to
12, 15 to 17, 48; no error waiting for the self-test, log 38; the run light off, log 44; data terminal ready low, log 53):
DESIGN CHOICE, unsafe. -/
def reset : State where
  cfg := HostConfig.default
  ac := Quad.all 0
  cry := false
  pc := 0
  fpac := Quad.all 0
  fpsr := ⟨false, false, false, false, false, false, false, false, 0⟩
  ion := false
  ionHold := .none
  mask := 0
  con := { brk := false, pup := true, hlt := false, pl := false, trp := false, dg := false }
  survived := false
  vcr := 0
  runState := .halted
  pf := false
  tti := ⟨false, false, false, false, false, false, 0⟩
  tto := ⟨false, false, 0⟩
  rtc := ⟨false, false, 0⟩
  pit := ⟨false, false, 0, 0⟩
  ercc := ⟨false, false, 0, 0, 0⟩
  runLight := false
  ext := []
  mem := []
  memFaults := []
  umap := Quad.all clearMap
  dmap := Quad.all clearMap
  ms := ⟨0, 0, false, false, false, false, false, false, false, false, false, false, false⟩
  mapOn := false
  mapPending := false
  scPending := false
  p31 := page31Reset
  pchk := 0
  xct := none
  freeIdx := 0
  dchDue := []
  testErrors := []
  inputs := []
  outputs := []

end State

/-! ## Why a step stops -/

/-- The faults of the model: states in which the machine of the manual goes no further. -/
inductive Fault where
  /-- An indirection chain that never ends (20_memory R115, 93_implementation_defined U3); raised by the reading of pointer
  words. Safe. -/
  | indirectionLoop
  /-- A MAP protection fault inside the MAP protection fault sequence. The map is off there, so nothing raises it
  (60_exceptions R656). Safe. -/
  | nestedMapFault
  deriving DecidableEq, Repr

/-- The refusals of the model. -/
inductive Refusal where
  /-- An instruction that has no meaning yet, by its mnemonic; raised by `exec`. Safe. -/
  | notModelled (mnemonic : String)
  /-- XCT of CMV, CMP, CTR, CMT or BAM, whose effect the manual leaves unspecified (45_program_flow R480,
  93_implementation_defined U53); raised by XCT. Safe. -/
  | xctOfRestarting
  /-- DOAP CPU with accumulator bit 15 set, which the manual forbids without saying what it does (46_io R530,
  93_implementation_defined U31); raised by DOAP CPU. Safe. -/
  | doapDiagnosticBit
  deriving DecidableEq, Repr

end Sys2Proof.Machine
end

