-- ==== Sys2Proof/WellFormed.lean ====
section
/-!
DEFINITION. Which terms of `Instr` are instructions: the ones that some word selects under the selection rule of
30_encoding R193. A term is ill formed where its own row's word belongs to another row: an ALC term with one of the two
no-load patterns (R163), a generic I/O term addressed to a device that has a row of its own, a status read of accumulator 0
(R177), and the flag values that have rows of their own (46_io R501).
-/

namespace Sys2Proof

/-- No-load with skip field "never" or "always" is no ALC instruction (30_encoding R163). -/
def AlcOps.wf (o : AlcOps) : Bool :=
  !(o.noLoad && (decide (o.skip = .never) || decide (o.skip = .always)))

namespace Instr

/-- NIO and DIS have rows of their own for the CPU (77) and the MAP (3). -/
def genericDeviceNio (dev : BitVec 6) : Bool := decide (dev ≠ 0o77) && decide (dev ≠ 3)

/-- DIA has rows of its own for the CPU, the MAP, TTI, PIT, ERCC and APL. -/
def genericDeviceDia (dev : BitVec 6) : Bool :=
  decide (dev ≠ 0o77) && decide (dev ≠ 3) && decide (dev ≠ 0o10) && decide (dev ≠ 0o43) && decide (dev ≠ 2) &&
    decide (dev ≠ 1)

/-- DOA has rows of its own for the CPU, the MAP, TTO, RTC, PIT, ERCC and APL. -/
def genericDeviceDoa (dev : BitVec 6) : Bool :=
  decide (dev ≠ 0o77) && decide (dev ≠ 3) && decide (dev ≠ 0o11) && decide (dev ≠ 0o14) && decide (dev ≠ 0o43) &&
    decide (dev ≠ 2) && decide (dev ≠ 1)

/-- DIB has rows of its own for the CPU, the MAP and ERCC. -/
def genericDeviceDib (dev : BitVec 6) : Bool :=
  decide (dev ≠ 0o77) && decide (dev ≠ 3) && decide (dev ≠ 2)

/-- DOB has rows of its own for the CPU and the MAP. -/
def genericDeviceDob (dev : BitVec 6) : Bool := decide (dev ≠ 0o77) && decide (dev ≠ 3)

/-- DIC has rows of its own for the CPU and the MAP. -/
def genericDeviceDic (dev : BitVec 6) : Bool := decide (dev ≠ 0o77) && decide (dev ≠ 3)

/-- DOC has rows of its own for the CPU and the MAP. -/
def genericDeviceDoc (dev : BitVec 6) : Bool := decide (dev ≠ 0o77) && decide (dev ≠ 3)

/-- SKP has a row of its own for the CPU. -/
def genericDeviceSkp (dev : BitVec 6) : Bool := decide (dev ≠ 0o77)

/-- A status read names accumulator 1, 2 or 3: with 0 the word is SKP (30_encoding R177). -/
def statusAc (ac : AcNo) : Bool := decide (ac ≠ 0)

/-- NIO CPU with S or C is INTEN or INTDS (46_io R520). -/
def nioCpuFlag (f : IoFlag) : Bool := decide (f = .none) || decide (f = .pulse)

/-- DOA CPU with P is DOAP, NIO MAP with P is NIOP (46_io R530, 47_map R598). -/
def notPulse (f : IoFlag) : Bool := decide (f ≠ .pulse)

/-- INTA with accumulator 0 and P is VCT (46_io R540). -/
def intaNotVct (ac : AcNo) (f : IoFlag) : Bool := !(decide (ac = 0) && decide (f = .pulse))

/-- The term is the instruction of some word. -/
def wf : Instr → Bool
  | .com o => o.wf
  | .neg o => o.wf
  | .mov o => o.wf
  | .inc o => o.wf
  | .adc o => o.wf
  | .sub o => o.wf
  | .add o => o.wf
  | .and o => o.wf
  | .nio _ _ dev => genericDeviceNio dev
  | .dia _ _ dev => genericDeviceDia dev
  | .doa _ _ dev => genericDeviceDoa dev
  | .dib _ _ dev => genericDeviceDib dev
  | .dob _ _ dev => genericDeviceDob dev
  | .dic _ _ dev => genericDeviceDic dev
  | .doc _ _ dev => genericDeviceDoc dev
  | .skp _ dev => genericDeviceSkp dev
  | .dis ac _ dev => statusAc ac && genericDeviceNio dev
  | .nioCpu _ f => nioCpuFlag f
  | .doaCpu _ f => notPulse f
  | .inta ac f => intaNotVct ac f
  | .disCpu ac _ => statusAc ac
  | .nioMap _ f => notPulse f
  | .disMap ac _ => statusAc ac
  | .jmp _ | .jsr _ | .isz _ | .dsz _ | .lda _ _ | .sta _ _ | .lef _ _ | .adi _ _ | .sbi _ _ | .dad _ _ | .dsb _ _
  | .ior _ _ | .xor _ _ | .anc _ _ | .xch _ _ | .sgt _ _ | .sge _ _ | .lsh _ _ | .dlsh _ _ | .hxl _ _ | .hxr _ _
  | .dhxl _ _ | .dhxr _ _ | .bto _ _ | .btz _ _ | .szb _ _ | .szbo _ _ | .lob _ _ | .lrb _ _ | .cob _ _ | .ldb _ _
  | .stb _ _ | .psh _ _ | .pop _ _ | .syc _ _ | .lmp | .pshr | .popb | .bam | .popj | .rtn | .blm | .divx | .mul
  | .muls | .div | .divs | .save _ | .rstr | .xop _ _ _ | .xop1 _ _ _ | .ejmp _ | .ejsr _ | .eisz _ | .edsz _
  | .pshj _ | .elda _ _ | .esta _ _ | .elef _ _ | .eldb _ _ _ | .estb _ _ _ | .dspa _ _ | .clm _ _ | .snb _ _
  | .msp _ | .xct _ | .hlv _ | .iori _ _ | .xori _ _ | .andi _ _ | .addi _ _ | .fas _ _ | .fad _ _ | .fss _ _
  | .fsd _ _ | .fms _ _ | .fmd _ _ | .fds _ _ | .fdd _ _ | .fams _ _ | .famd _ _ | .fsms _ _ | .fsmd _ _ | .fmms _ _
  | .fmmd _ _ | .fdms _ _ | .fdmd _ _ | .flds _ _ | .fldd _ _ | .fsts _ _ | .fstd _ _ | .flmd _ _ | .ffmd _ _
  | .flas _ _ | .ffas _ _ | .fnom _ | .frh _ | .fab _ | .fneg _ | .fscal _ | .fexp _ | .fint _ | .fhlv _ | .fns
  | .fsa | .fseq | .fsne | .fslt | .fsge | .fsle | .fsgt | .fsnm | .fsnd | .fsnu | .fsnud | .fsno | .fsnod | .fsnuo
  | .fsner | .fsst _ | .flst _ | .fte | .ftd | .fcle | .fpsh | .fpop | .fcmp _ _ | .fmov _ _ | .cmv | .cmp | .ctr
  | .cmt | .inten _ | .intds _ | .reads _ _ | .doapCpu _ | .vct _ _ | .msko _ _ | .iorst _ _ | .halta _ _ | .skpCpu _
  | .diaMap _ _ | .doaMap _ _ | .dobMap _ _ | .dicMap _ _ | .docMap _ _ | .niopMap _ | .dibMap _ _ | .diaTti _ _
  | .doaTto _ _ | .doaRtc _ _ | .diaPit _ _ | .doaPit _ _ | .doaErcc _ _ | .diaErcc _ _ | .dibErcc _ _ | .diaApl _ _
  | .doaApl _ _ => true

end Instr

end Sys2Proof
end

