-- ==== Sys2Proof/Decode.lean ====
section
/-!
DEFINITION. The decoder, total on any bytes, rejecting by name (30_encoding R160 to R191), and after it the encoder, written
from the base values and fields of the same tables. A word's bytes lie high byte first (20_memory R106).
-/

namespace Sys2Proof

/-! ## Fields of a word -/

/-- The field of `width` bits whose last bit stands `shift` places above bit 15. -/
def field (w : Word) (shift width : Nat) : Nat := w.toNat / 2 ^ shift % 2 ^ width

/-- The two-bit accumulator number at `shift`. -/
def acAt (w : Word) (shift : Nat) : AcNo := BitVec.ofNat 2 (field w shift 2)

/-- The index code of two bits (20_memory R112). -/
def Index.ofBits : Nat → Index
  | 0 => .abs
  | 1 => .pc
  | 2 => .ac2
  | _ => .ac3

/-- The shift code of two bits (30_encoding R164). -/
def Shift.ofBits : Nat → Shift
  | 0 => .none
  | 1 => .left
  | 2 => .right
  | _ => .swap

/-- The carry code of two bits (30_encoding R164). -/
def CarryInit.ofBits : Nat → CarryInit
  | 0 => .current
  | 1 => .zero
  | 2 => .one
  | _ => .complement

/-- The skip code of three bits (30_encoding R164). -/
def Skip.ofBits : Nat → Skip
  | 0 => .never
  | 1 => .always
  | 2 => .szc
  | 3 => .snc
  | 4 => .szr
  | 5 => .snr
  | 6 => .sez
  | _ => .sbn

/-- The flag code of two bits (46_io R504). -/
def IoFlag.ofBits : Nat → IoFlag
  | 0 => .none
  | 1 => .start
  | 2 => .clear
  | _ => .pulse

/-- The skip test code of two bits (46_io R505). -/
def SkipTest.ofBits : Nat → SkipTest
  | 0 => .bn
  | 1 => .bz
  | 2 => .dn
  | _ => .dz

/-- The short address field of a word (20_memory R110). -/
def ShortAddr.ofWord (w : Word) : ShortAddr :=
  ⟨decide (field w 10 1 = 1), Index.ofBits (field w 8 2), BitVec.ofNat 8 (field w 0 8)⟩

/-- The extended address field whose index bits stand at `shift` of the first word (20_memory R111). -/
def ExtAddr.ofWords (w1 : Word) (shift : Nat) (w2 : Word) : ExtAddr :=
  ⟨decide (field w2 15 1 = 1), Index.ofBits (field w1 shift 2), BitVec.ofNat 15 (field w2 0 15)⟩

/-- The fields of an ALC word (30_encoding R164). -/
def AlcOps.ofWord (w : Word) : AlcOps :=
  ⟨acAt w 13, acAt w 11, Shift.ofBits (field w 6 2), CarryInit.ofBits (field w 4 2), decide (field w 3 1 = 1),
    Skip.ofBits (field w 0 3)⟩

/-! ## The decoder, class by class (30_encoding R191) -/

/-- Bits 0-2 = 000: the short references without accumulator (R162). -/
def decodeJump (w : Word) : Instr :=
  match field w 11 2 with
  | 0 => .jmp (.ofWord w)
  | 1 => .jsr (.ofWord w)
  | 2 => .isz (.ofWord w)
  | _ => .dsz (.ofWord w)

/-- I/O words addressed to the CPU, device 77 octal (46_io R520 to R531). -/
def decodeIoCpu (w : Word) : Instr :=
  let ac := acAt w 11
  let f := IoFlag.ofBits (field w 6 2)
  match field w 8 3 with
  | 0 =>
    match field w 6 2 with
    | 1 => .inten ac
    | 2 => .intds ac
    | _ => .nioCpu ac f
  | 1 => .reads ac f
  | 2 => if field w 6 2 = 3 then .doapCpu ac else .doaCpu ac f
  | 3 => .inta ac f
  | 4 => .msko ac f
  | 5 => .iorst ac f
  | 6 => .halta ac f
  | _ => if field w 11 2 = 0 then .skpCpu (SkipTest.ofBits (field w 6 2)) else .disCpu ac f

/-- I/O words addressed to the MAP, device 3 (47_map R593 to R599). SKP MAP is the generic SKP. -/
def decodeIoMap (w : Word) : Instr :=
  let ac := acAt w 11
  let f := IoFlag.ofBits (field w 6 2)
  match field w 8 3 with
  | 0 => if field w 6 2 = 3 then .niopMap ac else .nioMap ac f
  | 1 => .diaMap ac f
  | 2 => .doaMap ac f
  | 3 => .dibMap ac f
  | 4 => .dobMap ac f
  | 5 => .dicMap ac f
  | 6 => .docMap ac f
  | _ =>
    if field w 11 2 = 0 then .skp (SkipTest.ofBits (field w 6 2)) (BitVec.ofNat 6 (field w 0 6)) else .disMap ac f

/-- I/O words of the generic rows, any device (46_io R507 to R515). -/
def decodeIoGeneric (w : Word) : Instr :=
  let ac := acAt w 11
  let f := IoFlag.ofBits (field w 6 2)
  let dev := BitVec.ofNat 6 (field w 0 6)
  match field w 8 3 with
  | 0 => .nio ac f dev
  | 1 => .dia ac f dev
  | 2 => .doa ac f dev
  | 3 => .dib ac f dev
  | 4 => .dob ac f dev
  | 5 => .dic ac f dev
  | 6 => .doc ac f dev
  | _ => if field w 11 2 = 0 then .skp (SkipTest.ofBits (field w 6 2)) dev else .dis ac f dev

/-- The words of a processor-board device that have rows of their own (46_io R545 to R558): device code, then operation. -/
def decodeIoBoard (w : Word) : Option Instr :=
  let ac := acAt w 11
  let f := IoFlag.ofBits (field w 6 2)
  match field w 0 6 with
  | 0o10 => if field w 8 3 = 1 then some (.diaTti ac f) else none
  | 0o11 => if field w 8 3 = 2 then some (.doaTto ac f) else none
  | 0o14 => if field w 8 3 = 2 then some (.doaRtc ac f) else none
  | 0o43 =>
    match field w 8 3 with
    | 1 => some (.diaPit ac f)
    | 2 => some (.doaPit ac f)
    | _ => none
  | 2 =>
    match field w 8 3 with
    | 1 => some (.diaErcc ac f)
    | 2 => some (.doaErcc ac f)
    | 3 => some (.dibErcc ac f)
    | _ => none
  | 1 =>
    match field w 8 3 with
    | 1 => some (.diaApl ac f)
    | 2 => some (.doaApl ac f)
    | _ => none
  | _ => none

/-- I/O-format words (46_io R501): VCT first, then the row of the device, then the generic row (30_encoding R193). -/
def decodeIo (w1 w2 : Word) : Instr :=
  if w1.toNat = 0o061777 then .vct (decide (field w2 15 1 = 1)) (BitVec.ofNat 15 (field w2 0 15))
  else
    match field w1 0 6 with
    | 0o77 => decodeIoCpu w1
    | 3 => decodeIoMap w1
    | _ =>
      match decodeIoBoard w1 with
      | some i => i
      | none => decodeIoGeneric w1

/-- ALC words (30_encoding R164). -/
def decodeAlc (w : Word) : Instr :=
  match field w 8 3 with
  | 0 => .com (.ofWord w)
  | 1 => .neg (.ofWord w)
  | 2 => .mov (.ofWord w)
  | 3 => .inc (.ofWord w)
  | 4 => .adc (.ofWord w)
  | 5 => .sub (.ofWord w)
  | 6 => .add (.ofWord w)
  | _ => .and (.ofWord w)

/-- The no-operand group of 30_encoding R172, selected by bits 1-4. -/
def decodeNoOperand (w w2 : Word) : Option Instr :=
  match field w 11 4 with
  | 0 => some .pshr
  | 1 => some .popb
  | 2 => some .bam
  | 3 => some .popj
  | 5 => some .rtn
  | 6 => some .blm
  | 7 => some .divx
  | 8 => some .mul
  | 9 => some .muls
  | 10 => some .div
  | 11 => some .divs
  | 12 => some (.save w2)
  | 13 => some .rstr
  | _ => none

/-- Bits 10-15 = 001000: the table of 30_encoding R165, selected by bits 5-9. -/
def decodeExt (w w2 : Word) : Option Instr :=
  let s := acAt w 13
  let d := acAt w 11
  match field w 6 5 with
  | 0 => some (.adi s d)
  | 1 => some (.sbi s d)
  | 2 => some (.dad s d)
  | 3 => some (.dsb s d)
  | 4 => some (.ior s d)
  | 5 => some (.xor s d)
  | 6 => some (.anc s d)
  | 7 => some (.xch s d)
  | 8 => some (.sgt s d)
  | 9 => some (.sge s d)
  | 10 => some (.lsh s d)
  | 11 => some (.dlsh s d)
  | 12 => some (.hxl s d)
  | 13 => some (.hxr s d)
  | 14 => some (.dhxl s d)
  | 15 => some (.dhxr s d)
  | 16 => some (.bto s d)
  | 17 => some (.btz s d)
  | 18 => some (.szb s d)
  | 19 => some (.szbo s d)
  | 20 => some (.lob s d)
  | 21 => some (.lrb s d)
  | 22 => some (.cob s d)
  | 23 => some (.ldb s d)
  | 24 => some (.stb s d)
  | 25 => some (.psh s d)
  | 26 => some (.pop s d)
  | 28 => if field w 11 4 = 2 then some .lmp else none
  | 29 => some (.syc s d)
  | 31 => decodeNoOperand w w2
  | _ => none

/-- The floating-point skips of 30_encoding R176, selected by bits 1-4. -/
def decodeFloatSkip (w : Word) : Instr :=
  match field w 11 4 with
  | 0 => .fns
  | 1 => .fsa
  | 2 => .fseq
  | 3 => .fsne
  | 4 => .fslt
  | 5 => .fsge
  | 6 => .fsle
  | 7 => .fsgt
  | 8 => .fsnm
  | 9 => .fsnd
  | 10 => .fsnu
  | 11 => .fsnud
  | 12 => .fsno
  | 13 => .fsnod
  | 14 => .fsnuo
  | _ => .fsner

/-- Bits 5-9 = 11011 of the floating-point group: FSST, FLST and the status instructions (30_encoding R168, R171). -/
def decodeFloatStatus (w w2 : Word) : Option Instr :=
  match field w 13 2 with
  | 0 => some (.fsst (.ofWords w 11 w2))
  | 1 => some (.flst (.ofWords w 11 w2))
  | _ =>
    match field w 11 4 with
    | 8 => some .fte
    | 9 => some .ftd
    | 10 => some .fcle
    | 12 => some .fpsh
    | 13 => some .fpop
    | _ => none

/-- Bits 10-15 = 101000: the table of 30_encoding R171, selected by bits 5-9. -/
def decodeFloat (w w2 : Word) : Option Instr :=
  let s := acAt w 13
  let d := acAt w 11
  let ea := ExtAddr.ofWords w 13 w2
  match field w 6 5 with
  | 0 => some (.fas s d)
  | 1 => some (.fad s d)
  | 2 => some (.fss s d)
  | 3 => some (.fsd s d)
  | 4 => some (.fms s d)
  | 5 => some (.fmd s d)
  | 6 => some (.fds s d)
  | 7 => some (.fdd s d)
  | 8 => some (.fams d ea)
  | 9 => some (.famd d ea)
  | 10 => some (.fsms d ea)
  | 11 => some (.fsmd d ea)
  | 12 => some (.fmms d ea)
  | 13 => some (.fmmd d ea)
  | 14 => some (.fdms d ea)
  | 15 => some (.fdmd d ea)
  | 16 => some (.flds d ea)
  | 17 => some (.fldd d ea)
  | 18 => some (.fsts d ea)
  | 19 => some (.fstd d ea)
  | 20 => some (.flas s d)
  | 21 => some (.flmd d ea)
  | 22 => some (.ffas s d)
  | 23 => some (.ffmd d ea)
  | 24 =>
    match field w 13 2 with
    | 0 => some (.fnom d)
    | 1 => some (.frh d)
    | 2 => some (.fab d)
    | _ => some (.fneg d)
  | 25 =>
    match field w 13 2 with
    | 0 => some (.fscal d)
    | 1 => some (.fexp d)
    | 2 => some (.fint d)
    | _ => some (.fhlv d)
  | 26 => some (decodeFloatSkip w)
  | 27 => decodeFloatStatus w w2
  | 28 => some (.fcmp s d)
  | 29 => some (.fmov s d)
  | 30 =>
    match field w 11 4 with
    | 10 => some .cmv
    | 11 => some .cmp
    | 12 => some .ctr
    | 13 => some .cmt
    | _ => none
  | _ => none

/-- Bits 8-9 = 11 of the extended references: CLM, SNB, MSP, XCT, HLV and the immediates (30_encoding R169, R174). -/
def decodeGroup3 (w w2 : Word) : Option Instr :=
  let s := acAt w 13
  let d := acAt w 11
  match field w 8 2 with
  | 0 => some (.clm s d)
  | 1 => some (.snb s d)
  | 2 =>
    match field w 13 2 with
    | 0 => some (.msp d)
    | 1 => some (.xct d)
    | 2 => some (.hlv d)
    | _ => none
  | _ =>
    match field w 13 2 with
    | 0 => some (.iori d w2)
    | 1 => some (.xori d w2)
    | 2 => some (.andi d w2)
    | _ => some (.addi d w2)

/-- Bits 10-15 = 111000 with bit 5 = 1: extended memory references, selected by bits 8-9 and 1-2 (30_encoding R166). -/
def decodeExtRef (w w2 : Word) : Option Instr :=
  let d := acAt w 11
  let ea := ExtAddr.ofWords w 8 w2
  match field w 6 2 with
  | 0 =>
    match field w 13 2 with
    | 0 =>
      match field w 11 2 with
      | 0 => some (.ejmp ea)
      | 1 => some (.ejsr ea)
      | 2 => some (.eisz ea)
      | _ => some (.edsz ea)
    | 1 => some (.elda d ea)
    | 2 => some (.esta d ea)
    | _ => some (.elef d ea)
  | 1 =>
    match field w 13 2 with
    | 0 => some (.eldb d (Index.ofBits (field w 8 2)) w2)
    | 1 => some (.estb d (Index.ofBits (field w 8 2)) w2)
    | 2 => some (.dspa d ea)
    | _ => none
  | 2 => if field w 11 4 = 0 then some (.pshj ea) else none
  | _ => decodeGroup3 w w2

/-- The instruction of a first word `w` and the word after it, or `none` where the first word is undefined (30_encoding
R190, R191). `lef` says that the MAP is on with LEF mode enabled (47_map R580). A one-word instruction does not look at
`w2`. -/
def decodeWords (lef : Bool) (w w2 : Word) : Option Instr :=
  match field w 13 3 with
  | 0 => some (decodeJump w)
  | 1 => some (.lda (acAt w 11) (.ofWord w))
  | 2 => some (.sta (acAt w 11) (.ofWord w))
  | 3 => if lef then some (.lef (acAt w 11) (.ofWord w)) else some (decodeIo w w2)
  | _ =>
    match field w 0 4 with
    | 9 => none
    | 8 =>
      match field w 4 2 with
      | 0 => decodeExt w w2
      | 1 => some (.xop (acAt w 13) (acAt w 11) (BitVec.ofNat 5 (field w 6 5)))
      | 2 => decodeFloat w w2
      | _ =>
        if field w 10 1 = 0 then some (.xop1 (acAt w 13) (acAt w 11) (BitVec.ofNat 4 (field w 6 4)))
        else decodeExtRef w w2
    | _ => some (decodeAlc w)

/-! ## The encoder -/

/-- The two bits of an index code. -/
def Index.bits : Index → Nat
  | .abs => 0
  | .pc => 1
  | .ac2 => 2
  | .ac3 => 3

/-- The two bits of a shift code. -/
def Shift.bits : Shift → Nat
  | .none => 0
  | .left => 1
  | .right => 2
  | .swap => 3

/-- The two bits of a carry code. -/
def CarryInit.bits : CarryInit → Nat
  | .current => 0
  | .zero => 1
  | .one => 2
  | .complement => 3

/-- The three bits of a skip code. -/
def Skip.bits : Skip → Nat
  | .never => 0
  | .always => 1
  | .szc => 2
  | .snc => 3
  | .szr => 4
  | .snr => 5
  | .sez => 6
  | .sbn => 7

/-- The two bits of a flag code. -/
def IoFlag.bits : IoFlag → Nat
  | .none => 0
  | .start => 1
  | .clear => 2
  | .pulse => 3

/-- The two bits of a skip test code. -/
def SkipTest.bits : SkipTest → Nat
  | .bn => 0
  | .bz => 1
  | .dn => 2
  | .dz => 3

/-- Bits 5-15 of a short memory reference (20_memory R110). -/
def ShortAddr.bits (a : ShortAddr) : Nat := a.ind.toNat * 1024 + a.idx.bits * 256 + a.disp.toNat

/-- A second word of bit 0 and bits 1-15 (20_memory R111, 46_io R540). -/
def flagWord (b : Bool) (a : BitVec 15) : Word := BitVec.ofNat 16 (b.toNat * 32768 + a.toNat)

/-- The second word of an extended reference (20_memory R111). -/
def ExtAddr.word2 (a : ExtAddr) : Word := flagWord a.ind a.disp

/-- The bits of an ALC word other than bit 0 and the operation (30_encoding R164). -/
def AlcOps.bits (o : AlcOps) : Nat :=
  o.acs.toNat * 8192 + o.acd.toNat * 2048 + o.shift.bits * 64 + o.carry.bits * 16 + o.noLoad.toNat * 8 + o.skip.bits

/-- A word from its number. -/
def word (n : Nat) : Word := BitVec.ofNat 16 n

/-- The words of an instruction: the base value of Appendix F with its fields, and the second word of a two-word
instruction (30_encoding R160 to R176, 46_io R501). -/
def encode : Instr → List Word
  | .jmp ea => [word (0o000000 + ea.bits)]
  | .jsr ea => [word (0o004000 + ea.bits)]
  | .isz ea => [word (0o010000 + ea.bits)]
  | .dsz ea => [word (0o014000 + ea.bits)]
  | .lda ac ea => [word (0o020000 + ac.toNat * 2048 + ea.bits)]
  | .sta ac ea => [word (0o040000 + ac.toNat * 2048 + ea.bits)]
  | .lef ac ea => [word (0o060000 + ac.toNat * 2048 + ea.bits)]
  | .com o => [word (0o100000 + o.bits)]
  | .neg o => [word (0o100400 + o.bits)]
  | .mov o => [word (0o101000 + o.bits)]
  | .inc o => [word (0o101400 + o.bits)]
  | .adc o => [word (0o102000 + o.bits)]
  | .sub o => [word (0o102400 + o.bits)]
  | .add o => [word (0o103000 + o.bits)]
  | .and o => [word (0o103400 + o.bits)]
  | .adi n ac => [word (0o100010 + n.toNat * 8192 + ac.toNat * 2048)]
  | .sbi n ac => [word (0o100110 + n.toNat * 8192 + ac.toNat * 2048)]
  | .dad acs acd => [word (0o100210 + acs.toNat * 8192 + acd.toNat * 2048)]
  | .dsb acs acd => [word (0o100310 + acs.toNat * 8192 + acd.toNat * 2048)]
  | .ior acs acd => [word (0o100410 + acs.toNat * 8192 + acd.toNat * 2048)]
  | .xor acs acd => [word (0o100510 + acs.toNat * 8192 + acd.toNat * 2048)]
  | .anc acs acd => [word (0o100610 + acs.toNat * 8192 + acd.toNat * 2048)]
  | .xch acs acd => [word (0o100710 + acs.toNat * 8192 + acd.toNat * 2048)]
  | .sgt acs acd => [word (0o101010 + acs.toNat * 8192 + acd.toNat * 2048)]
  | .sge acs acd => [word (0o101110 + acs.toNat * 8192 + acd.toNat * 2048)]
  | .lsh acs acd => [word (0o101210 + acs.toNat * 8192 + acd.toNat * 2048)]
  | .dlsh acs acd => [word (0o101310 + acs.toNat * 8192 + acd.toNat * 2048)]
  | .hxl n ac => [word (0o101410 + n.toNat * 8192 + ac.toNat * 2048)]
  | .hxr n ac => [word (0o101510 + n.toNat * 8192 + ac.toNat * 2048)]
  | .dhxl n ac => [word (0o101610 + n.toNat * 8192 + ac.toNat * 2048)]
  | .dhxr n ac => [word (0o101710 + n.toNat * 8192 + ac.toNat * 2048)]
  | .bto acs acd => [word (0o102010 + acs.toNat * 8192 + acd.toNat * 2048)]
  | .btz acs acd => [word (0o102110 + acs.toNat * 8192 + acd.toNat * 2048)]
  | .szb acs acd => [word (0o102210 + acs.toNat * 8192 + acd.toNat * 2048)]
  | .szbo acs acd => [word (0o102310 + acs.toNat * 8192 + acd.toNat * 2048)]
  | .lob acs acd => [word (0o102410 + acs.toNat * 8192 + acd.toNat * 2048)]
  | .lrb acs acd => [word (0o102510 + acs.toNat * 8192 + acd.toNat * 2048)]
  | .cob acs acd => [word (0o102610 + acs.toNat * 8192 + acd.toNat * 2048)]
  | .ldb acs acd => [word (0o102710 + acs.toNat * 8192 + acd.toNat * 2048)]
  | .stb acs acd => [word (0o103010 + acs.toNat * 8192 + acd.toNat * 2048)]
  | .psh acs acd => [word (0o103110 + acs.toNat * 8192 + acd.toNat * 2048)]
  | .pop acs acd => [word (0o103210 + acs.toNat * 8192 + acd.toNat * 2048)]
  | .syc acs acd => [word (0o103510 + acs.toNat * 8192 + acd.toNat * 2048)]
  | .lmp => [word (0o113410)]
  | .pshr => [word (0o103710)]
  | .popb => [word (0o107710)]
  | .bam => [word (0o113710)]
  | .popj => [word (0o117710)]
  | .rtn => [word (0o127710)]
  | .blm => [word (0o133710)]
  | .divx => [word (0o137710)]
  | .mul => [word (0o143710)]
  | .muls => [word (0o147710)]
  | .div => [word (0o153710)]
  | .divs => [word (0o157710)]
  | .save i => [word (0o163710), i]
  | .rstr => [word (0o167710)]
  | .xop acs acd op => [word (0o100030 + acs.toNat * 8192 + acd.toNat * 2048 + op.toNat * 64)]
  | .xop1 acs acd op => [word (0o100070 + acs.toNat * 8192 + acd.toNat * 2048 + op.toNat * 64)]
  | .ejmp ea => [word (0o102070 + ea.idx.bits * 256), ea.word2]
  | .ejsr ea => [word (0o106070 + ea.idx.bits * 256), ea.word2]
  | .eisz ea => [word (0o112070 + ea.idx.bits * 256), ea.word2]
  | .edsz ea => [word (0o116070 + ea.idx.bits * 256), ea.word2]
  | .pshj ea => [word (0o102270 + ea.idx.bits * 256), ea.word2]
  | .elda ac ea => [word (0o122070 + ac.toNat * 2048 + ea.idx.bits * 256), ea.word2]
  | .esta ac ea => [word (0o142070 + ac.toNat * 2048 + ea.idx.bits * 256), ea.word2]
  | .elef ac ea => [word (0o162070 + ac.toNat * 2048 + ea.idx.bits * 256), ea.word2]
  | .eldb ac idx disp => [word (0o102170 + ac.toNat * 2048 + idx.bits * 256), disp]
  | .estb ac idx disp => [word (0o122170 + ac.toNat * 2048 + idx.bits * 256), disp]
  | .dspa ac ea => [word (0o142170 + ac.toNat * 2048 + ea.idx.bits * 256), ea.word2]
  | .clm acs acd => [word (0o102370 + acs.toNat * 8192 + acd.toNat * 2048)]
  | .snb acs acd => [word (0o102770 + acs.toNat * 8192 + acd.toNat * 2048)]
  | .msp ac => [word (0o103370 + ac.toNat * 2048)]
  | .xct ac => [word (0o123370 + ac.toNat * 2048)]
  | .hlv ac => [word (0o143370 + ac.toNat * 2048)]
  | .iori ac i => [word (0o103770 + ac.toNat * 2048), i]
  | .xori ac i => [word (0o123770 + ac.toNat * 2048), i]
  | .andi ac i => [word (0o143770 + ac.toNat * 2048), i]
  | .addi ac i => [word (0o163770 + ac.toNat * 2048), i]
  | .fas facs facd => [word (0o100050 + facs.toNat * 8192 + facd.toNat * 2048)]
  | .fad facs facd => [word (0o100150 + facs.toNat * 8192 + facd.toNat * 2048)]
  | .fss facs facd => [word (0o100250 + facs.toNat * 8192 + facd.toNat * 2048)]
  | .fsd facs facd => [word (0o100350 + facs.toNat * 8192 + facd.toNat * 2048)]
  | .fms facs facd => [word (0o100450 + facs.toNat * 8192 + facd.toNat * 2048)]
  | .fmd facs facd => [word (0o100550 + facs.toNat * 8192 + facd.toNat * 2048)]
  | .fds facs facd => [word (0o100650 + facs.toNat * 8192 + facd.toNat * 2048)]
  | .fdd facs facd => [word (0o100750 + facs.toNat * 8192 + facd.toNat * 2048)]
  | .fams fac ea => [word (0o101050 + fac.toNat * 2048 + ea.idx.bits * 8192), ea.word2]
  | .famd fac ea => [word (0o101150 + fac.toNat * 2048 + ea.idx.bits * 8192), ea.word2]
  | .fsms fac ea => [word (0o101250 + fac.toNat * 2048 + ea.idx.bits * 8192), ea.word2]
  | .fsmd fac ea => [word (0o101350 + fac.toNat * 2048 + ea.idx.bits * 8192), ea.word2]
  | .fmms fac ea => [word (0o101450 + fac.toNat * 2048 + ea.idx.bits * 8192), ea.word2]
  | .fmmd fac ea => [word (0o101550 + fac.toNat * 2048 + ea.idx.bits * 8192), ea.word2]
  | .fdms fac ea => [word (0o101650 + fac.toNat * 2048 + ea.idx.bits * 8192), ea.word2]
  | .fdmd fac ea => [word (0o101750 + fac.toNat * 2048 + ea.idx.bits * 8192), ea.word2]
  | .flds fac ea => [word (0o102050 + fac.toNat * 2048 + ea.idx.bits * 8192), ea.word2]
  | .fldd fac ea => [word (0o102150 + fac.toNat * 2048 + ea.idx.bits * 8192), ea.word2]
  | .fsts fac ea => [word (0o102250 + fac.toNat * 2048 + ea.idx.bits * 8192), ea.word2]
  | .fstd fac ea => [word (0o102350 + fac.toNat * 2048 + ea.idx.bits * 8192), ea.word2]
  | .flmd fac ea => [word (0o102550 + fac.toNat * 2048 + ea.idx.bits * 8192), ea.word2]
  | .ffmd fac ea => [word (0o102750 + fac.toNat * 2048 + ea.idx.bits * 8192), ea.word2]
  | .flas ac fac => [word (0o102450 + ac.toNat * 8192 + fac.toNat * 2048)]
  | .ffas ac fac => [word (0o102650 + ac.toNat * 8192 + fac.toNat * 2048)]
  | .fnom fac => [word (0o103050 + fac.toNat * 2048)]
  | .frh fac => [word (0o123050 + fac.toNat * 2048)]
  | .fab fac => [word (0o143050 + fac.toNat * 2048)]
  | .fneg fac => [word (0o163050 + fac.toNat * 2048)]
  | .fscal fac => [word (0o103150 + fac.toNat * 2048)]
  | .fexp fac => [word (0o123150 + fac.toNat * 2048)]
  | .fint fac => [word (0o143150 + fac.toNat * 2048)]
  | .fhlv fac => [word (0o163150 + fac.toNat * 2048)]
  | .fns => [word (0o103250)]
  | .fsa => [word (0o107250)]
  | .fseq => [word (0o113250)]
  | .fsne => [word (0o117250)]
  | .fslt => [word (0o123250)]
  | .fsge => [word (0o127250)]
  | .fsle => [word (0o133250)]
  | .fsgt => [word (0o137250)]
  | .fsnm => [word (0o143250)]
  | .fsnd => [word (0o147250)]
  | .fsnu => [word (0o153250)]
  | .fsnud => [word (0o157250)]
  | .fsno => [word (0o163250)]
  | .fsnod => [word (0o167250)]
  | .fsnuo => [word (0o173250)]
  | .fsner => [word (0o177250)]
  | .fsst ea => [word (0o103350 + ea.idx.bits * 2048), ea.word2]
  | .flst ea => [word (0o123350 + ea.idx.bits * 2048), ea.word2]
  | .fte => [word (0o143350)]
  | .ftd => [word (0o147350)]
  | .fcle => [word (0o153350)]
  | .fpsh => [word (0o163350)]
  | .fpop => [word (0o167350)]
  | .fcmp facs facd => [word (0o103450 + facs.toNat * 8192 + facd.toNat * 2048)]
  | .fmov facs facd => [word (0o103550 + facs.toNat * 8192 + facd.toNat * 2048)]
  | .cmv => [word (0o153650)]
  | .cmp => [word (0o157650)]
  | .ctr => [word (0o163650)]
  | .cmt => [word (0o167650)]
  | .nio ac f dev => [word (0o060000 + ac.toNat * 2048 + f.bits * 64 + dev.toNat)]
  | .dia ac f dev => [word (0o060400 + ac.toNat * 2048 + f.bits * 64 + dev.toNat)]
  | .doa ac f dev => [word (0o061000 + ac.toNat * 2048 + f.bits * 64 + dev.toNat)]
  | .dib ac f dev => [word (0o061400 + ac.toNat * 2048 + f.bits * 64 + dev.toNat)]
  | .dob ac f dev => [word (0o062000 + ac.toNat * 2048 + f.bits * 64 + dev.toNat)]
  | .dic ac f dev => [word (0o062400 + ac.toNat * 2048 + f.bits * 64 + dev.toNat)]
  | .doc ac f dev => [word (0o063000 + ac.toNat * 2048 + f.bits * 64 + dev.toNat)]
  | .skp t dev => [word (0o063400 + t.bits * 64 + dev.toNat)]
  | .dis ac f dev => [word (0o063400 + ac.toNat * 2048 + f.bits * 64 + dev.toNat)]
  | .inten ac => [word (0o060177 + ac.toNat * 2048)]
  | .intds ac => [word (0o060277 + ac.toNat * 2048)]
  | .nioCpu ac f => [word (0o060077 + ac.toNat * 2048 + f.bits * 64)]
  | .reads ac f => [word (0o060477 + ac.toNat * 2048 + f.bits * 64)]
  | .doaCpu ac f => [word (0o061077 + ac.toNat * 2048 + f.bits * 64)]
  | .doapCpu ac => [word (0o061377 + ac.toNat * 2048)]
  | .inta ac f => [word (0o061477 + ac.toNat * 2048 + f.bits * 64)]
  | .vct stackChange table => [word (0o061777), flagWord stackChange table]
  | .msko ac f => [word (0o062077 + ac.toNat * 2048 + f.bits * 64)]
  | .iorst ac f => [word (0o062477 + ac.toNat * 2048 + f.bits * 64)]
  | .halta ac f => [word (0o063077 + ac.toNat * 2048 + f.bits * 64)]
  | .skpCpu t => [word (0o063477 + t.bits * 64)]
  | .disCpu ac f => [word (0o063477 + ac.toNat * 2048 + f.bits * 64)]
  | .diaMap ac f => [word (0o060403 + ac.toNat * 2048 + f.bits * 64)]
  | .doaMap ac f => [word (0o061003 + ac.toNat * 2048 + f.bits * 64)]
  | .dobMap ac f => [word (0o062003 + ac.toNat * 2048 + f.bits * 64)]
  | .dicMap ac f => [word (0o062403 + ac.toNat * 2048 + f.bits * 64)]
  | .docMap ac f => [word (0o063003 + ac.toNat * 2048 + f.bits * 64)]
  | .niopMap ac => [word (0o060303 + ac.toNat * 2048)]
  | .nioMap ac f => [word (0o060003 + ac.toNat * 2048 + f.bits * 64)]
  | .dibMap ac f => [word (0o061403 + ac.toNat * 2048 + f.bits * 64)]
  | .disMap ac f => [word (0o063403 + ac.toNat * 2048 + f.bits * 64)]
  | .diaTti ac f => [word (0o060410 + ac.toNat * 2048 + f.bits * 64)]
  | .doaTto ac f => [word (0o061011 + ac.toNat * 2048 + f.bits * 64)]
  | .doaRtc ac f => [word (0o061014 + ac.toNat * 2048 + f.bits * 64)]
  | .diaPit ac f => [word (0o060443 + ac.toNat * 2048 + f.bits * 64)]
  | .doaPit ac f => [word (0o061043 + ac.toNat * 2048 + f.bits * 64)]
  | .doaErcc ac f => [word (0o061002 + ac.toNat * 2048 + f.bits * 64)]
  | .diaErcc ac f => [word (0o060402 + ac.toNat * 2048 + f.bits * 64)]
  | .dibErcc ac f => [word (0o061402 + ac.toNat * 2048 + f.bits * 64)]
  | .diaApl ac f => [word (0o060401 + ac.toNat * 2048 + f.bits * 64)]
  | .doaApl ac f => [word (0o061001 + ac.toNat * 2048 + f.bits * 64)]

/-- The mode in which the words of an instruction select it: an I/O-format word is LEF where the MAP is on with LEF mode
enabled, an I/O instruction elsewhere; other words do not depend on the mode (47_map R580). -/
def Instr.selectedIn (lef : Bool) (i : Instr) : Bool :=
  match i with
  | .lef _ _ => lef
  | _ => !lef || decide (field ((encode i).getD 0 0) 13 3 ≠ 3)

/-- Length in words (30_encoding R160). -/
def Instr.words (i : Instr) : Nat := (encode i).length

/-- The length in words of the instruction that starts with `w`; the first word alone decides it (30_encoding R160). An
undefined word counts as one word. -/
def wordsOf (lef : Bool) (w : Word) : Nat :=
  match decodeWords lef w 0 with
  | some i => i.words
  | none => 1

/-! ## Bytes -/

/-- Why the decoder gives no instruction. -/
inductive Reject where
  /-- Fewer bytes than the instruction has. -/
  | truncated
  /-- The first word is undefined (30_encoding R190). -/
  | undefinedWord (w : Word)
  deriving DecidableEq, Repr

/-- The word of two bytes, high byte first (20_memory R106). -/
def wordOfBytes (hi lo : BitVec 8) : Word := hi ++ lo

/-- The high-order (left) byte of a word (20_memory R106). -/
def highByte (w : Word) : BitVec 8 := w.extractLsb' 8 8

/-- The low-order (right) byte of a word (20_memory R106). -/
def lowByte (w : Word) : BitVec 8 := w.extractLsb' 0 8

/-- The bytes of words as memory holds them (20_memory R106, R107). -/
def bytesOf : List Word → List (BitVec 8)
  | [] => []
  | w :: ws => highByte w :: lowByte w :: bytesOf ws

/-- Decode the instruction at the head of a list of bytes; the rest of the list follows it. -/
def decode (lef : Bool) : List (BitVec 8) → Except Reject (Instr × List (BitVec 8))
  | b0 :: b1 :: rest =>
    let w := wordOfBytes b0 b1
    if wordsOf lef w = 2 then
      match rest with
      | b2 :: b3 :: rest' =>
        match decodeWords lef w (wordOfBytes b2 b3) with
        | some i => .ok (i, rest')
        | none => .error (.undefinedWord w)
      | _ => .error .truncated
    else
      match decodeWords lef w 0 with
      | some i => .ok (i, rest)
      | none => .error (.undefinedWord w)
  | _ => .error .truncated

/-- The first and second word of an instruction given as a number: bit 0 is the least significant bit of the first word, the
second word's bits count on from 16. -/
def tableWords (w : Nat) : Word × Word := (BitVec.ofNat 16 (w % 65536), BitVec.ofNat 16 (w / 65536 % 65536))

/-- What the decoder reads, in unmapped mode, from an instruction given as a number whose bits above `nbits` are zero. In
unmapped mode LEF is not selected: its words are I/O instructions (47_map R580; log 41). -/
def decodeTableWord (nbits w : Nat) : Option Instr :=
  let ws := tableWords (w % 2 ^ nbits)
  match decode false (bytesOf [ws.1, ws.2]) with
  | .ok (i, _) => some i
  | .error _ => none

end Sys2Proof
end

