-- ==== Sys2Proof/Machine/Memory.lean ====
section
/-!
DEFINITION. Main memory as a list of (byte address, byte) pairs in one canonical form: addresses strictly rising, no entry
zero, which is what an unlisted byte reads as (20_memory R100, R106; log 1).
-/

namespace Sys2Proof.Machine

namespace Memory

/-- What a byte that nothing has written reads as: a fixed byte, since the manual gives main memory no contents at power-up
(10_state R50). DESIGN CHOICE, unsafe (log 1). -/
def unlisted : BitVec 8 := 0

/-- The byte at a physical byte address. -/
def read : List Host.Cell → Nat → BitVec 8
  | [], _ => unlisted
  | c :: m, a => if c.1 = a then c.2 else read m a

/-- Memory without the byte at `a`. -/
def erase : List Host.Cell → Nat → List Host.Cell
  | [], _ => []
  | c :: m, a => if c.1 = a then erase m a else c :: erase m a

/-- Memory with an entry for `a` put in its place. -/
def insert : List Host.Cell → Nat → BitVec 8 → List Host.Cell
  | [], a, b => [(a, b)]
  | c :: m, a, b => if a < c.1 then (a, b) :: c :: m else c :: insert m a b

/-- Memory after the byte at `a` is written: the value an unlisted byte reads as leaves no entry. -/
def write (m : List Host.Cell) (a : Nat) (b : BitVec 8) : List Host.Cell :=
  if b = unlisted then erase m a else insert (erase m a) a b

/-- No address below `lo`, addresses strictly rising, no entry equal to what an unlisted byte reads as. -/
def wfFrom : Nat → List Host.Cell → Bool
  | _, [] => true
  | lo, c :: m => decide (lo ≤ c.1) && decide (c.2 ≠ unlisted) && wfFrom (c.1 + 1) m

/-- The canonical form of memory. -/
def wf (m : List Host.Cell) : Bool := wfFrom 0 m

/-- The word at a physical word address: the high-order byte has byte indicator 0 (20_memory R106). -/
def readWord (m : List Host.Cell) (pa : Nat) : Word := wordOfBytes (read m (2 * pa)) (read m (2 * pa + 1))

/-- Memory after the word at a physical word address is written (20_memory R106). -/
def writeWord (m : List Host.Cell) (pa : Nat) (v : Word) : List Host.Cell :=
  write (write m (2 * pa) (highByte v)) (2 * pa + 1) (lowByte v)

end Memory

end Sys2Proof.Machine
end

