-- ==== Sys2Proof/Machine/Ercc.lean ====
section
/-!
DEFINITION. The fault codes of memory errors (46_io R557): what each code says, the code of an error in given bits of a word
and its check code, and the word a correction gives (46_io R554; log 45).
-/

namespace Sys2Proof.Machine

/-! ## The table of fault codes -/

/-- What a fault code says (46_io R557). -/
inductive FaultMeaning where
  | noError
  | checkBit (n : Nat)
  | dataBit (n : Nat)
  | twoBits
  | manyBits
  /-- A row of the table that is lost. Every bit of the word and of its check code has a row of its own, so that it is none
  of theirs. -/
  | lost
  deriving DecidableEq, Repr

/-- The table of fault codes, from code 0 up (46_io R557). -/
def faultTable : List FaultMeaning :=
  [.noError, .checkBit 5, .checkBit 4, .twoBits, .checkBit 3, .twoBits, .twoBits, .manyBits,
    .checkBit 2, .twoBits, .twoBits, .dataBit 15, .twoBits, .dataBit 13, .dataBit 7, .twoBits] ++
  [.checkBit 1, .twoBits, .twoBits, .manyBits, .twoBits, .dataBit 12, .dataBit 6, .twoBits,
    .twoBits, .dataBit 10, .dataBit 4, .twoBits, .dataBit 0, .twoBits, .twoBits, .manyBits] ++
  [.checkBit 0, .twoBits, .twoBits, .dataBit 14, .twoBits, .dataBit 11, .dataBit 5, .twoBits,
    .twoBits, .dataBit 9, .dataBit 3, .twoBits, .manyBits, .twoBits, .twoBits, .manyBits] ++
  [.twoBits, .dataBit 8, .dataBit 2, .twoBits, .dataBit 1, .twoBits, .twoBits, .manyBits,
    .twoBits, .lost, .twoBits, .manyBits, .twoBits, .manyBits, .lost, .twoBits]

/-- What a fault code says (46_io R557). -/
def faultMeaning (c : BitVec 6) : FaultMeaning := faultTable.getD c.toNat .lost

/-- The code of a row of the table that stands there once (46_io R557). -/
def codeOf (m : FaultMeaning) : BitVec 6 := BitVec.ofNat 6 (faultTable.idxOf m)

/-- The codes an error of two bits may have: the table's rows for one, and the two lost rows (46_io R557; log 45). -/
def twoBitCodes : List (BitVec 6) :=
  ((List.range 64).map (BitVec.ofNat 6)).filter fun c => decide (faultMeaning c ∈ [.twoBits, .lost])

/-- An error the check corrects: in a single bit (46_io R554). -/
def corrects (c : BitVec 6) : Bool :=
  match faultMeaning c with
  | .checkBit _ => true
  | .dataBit _ => true
  | .noError => false
  | .twoBits => false
  | .manyBits => false
  | .lost => false

/-! ## The error of a word -/

/-- The bits in error, of the word and of its check code, each by its row of the table. -/
def errorBits (data : Word) (check : BitVec 6) : List FaultMeaning :=
  ((List.range 16).filter data.getMsbD).map .dataBit ++ ((List.range 6).filter check.getMsbD).map .checkBit

/-- The fault code of an error in these bits: the row of a single bit; some row for two bits; and any code for three and more,
of which the check detects some. Which of several it is, the check code says, which the spec leaves outside: the free value
`x` (46_io R554, R557, 00_scope R11 d; log 45). -/
def errorCode (data : Word) (check : BitVec 6) (x : BitVec 6) : BitVec 6 :=
  match errorBits data check with
  | [] => codeOf .noError
  | [b] => codeOf b
  | [_, _] => twoBitCodes.getD (x.toNat % twoBitCodes.length) 0
  | _ :: _ :: _ :: _ => x

/-- The word as it stands, its bits in error inverted. -/
def rawWord (m : List Host.Cell) (f : MemFault) : Word := Memory.readWord m f.addr.toNat ^^^ f.data

/-- The word the check delivers: the bit the fault code names inverted again, else the word as it stands (46_io R554). -/
def mendedWord (m : List Host.Cell) (f : MemFault) : Word :=
  match faultMeaning f.code with
  | .dataBit n => rawWord m f ^^^ (0x8000#16 >>> n)
  | .checkBit _ => rawWord m f
  | .noError => rawWord m f
  | .twoBits => rawWord m f
  | .manyBits => rawWord m f
  | .lost => rawWord m f

end Sys2Proof.Machine
end

