-- ==== Sys2Proof/Machine/Ops.lean ====
section
/-!
DEFINITION. The operations every meaning is written with: reading and writing registers, free values, physical memory with its
errors (46_io R554) and the data channel's transfers between references (60_exceptions R625), the MAP's translation and
protection (47_map R575 to R578), the single-cycle reference (47_map R598), indirection (20_memory R114), the stack (44_stack
R431 to R435), taking a trap through a return block (60_exceptions R635 to R655) and the return from one (44_stack R443).
-/

namespace Sys2Proof.Machine

open Sys2Proof.Config (free64 chainFuel)

/-! ## What an instruction is made of -/

/-- The four kinds of MAP protection fault (47_map R576 to R579, R585). -/
inductive MapFaultKind where
  | validity
  | write
  | indirect
  | io
  deriving DecidableEq, Repr

/-- What ends an instruction before its end: a MAP protection fault, whose sequence then runs, or a stop of the model. -/
inductive Stop where
  | mapFault (k : MapFaultKind)
  | fault (f : Fault)
  | refusal (r : Refusal)
  deriving DecidableEq, Repr

/-- A piece of an instruction: it reads and changes the state, and may stop there with the state as it then is. -/
abbrev M (α : Type) := EStateM Stop State α

/-- Stop here. -/
def stop {α : Type} (e : Stop) : M α := throw e

/-! ## Registers -/

/-- Accumulator `i`. -/
def getAc (i : AcNo) : M Word := do
  let s ← get
  pure (s.ac.get i)

/-- Accumulator `i` becomes `v`. -/
def setAc (i : AcNo) (v : Word) : M Unit := modify fun s => { s with ac := s.ac.set i v }

/-- Floating-point accumulator `i`. -/
def getFpac (i : AcNo) : M QWord := do
  let s ← get
  pure (s.fpac.get i)

/-- Floating-point accumulator `i` becomes `v`. -/
def setFpac (i : AcNo) (v : QWord) : M Unit := modify fun s => { s with fpac := s.fpac.set i v }

/-- Carry becomes `c`. -/
def setCry (c : Bool) : M Unit := modify fun s => { s with cry := c }

/-- The program counter becomes `a`. -/
def setPc (a : Addr) : M Unit := modify fun s => { s with pc := a }

/-- Sequential operation: `n` words on (45_program_flow R461). -/
def advance (n : Nat) : M Unit := modify fun s => { s with pc := s.pc + BitVec.ofNat 15 n }

/-- A skip instruction of `n` words: one word more if the condition holds (45_program_flow R462). -/
def skipIf (n : Nat) (c : Bool) : M Unit := advance (if c then n + 1 else n)

/-- Send something out. -/
def emit (o : HostOutput) : M Unit := modify fun s => { s with outputs := o :: s.outputs }

/-! ## Free values -/

/-- The next free value of `n` bits, at most 64 (log 14). -/
def drawFree (n : Nat) : M (BitVec n) := do
  let s ← get
  set { s with freeIdx := s.freeIdx + 1 }
  pure ((free64 s.freeIdx).setWidth n)

/-- The next free bit. -/
def drawBit : M Bool := do
  let b ← drawFree 1
  pure (decide (b = 1))

/-! ## Physical memory (20_memory R103, 47_map R581) and its errors (46_io R554, R555; 60_exceptions R671; log 45) -/

/-- Reads are checked: mode bit 14 is one (46_io R555). -/
def erccChecks (e : Ercc) : Bool := e.mode.getLsbD 1

/-- ERCC interrupts are enabled: mode bits 14 and 15 both one (46_io R555). -/
def erccEnabled (e : Ercc) : Bool := erccChecks e && e.mode.getLsbD 0

/-- Writes write a check code: not in the modes whose bits 14 and 15 are 01 (46_io R555). -/
def erccWrites (e : Ercc) : Bool := erccChecks e || !e.mode.getLsbD 0

/-- Sniffing is on: mode bit 13 is zero (46_io R555). -/
def erccSniffs (e : Ercc) : Bool := !e.mode.getLsbD 2

/-- An error found on a memory read is recorded, with Done and the interrupt request where interrupts are enabled (46_io
R554; 60_exceptions R671). -/
def erccRecord (f : MemFault) (e : Ercc) : Ercc :=
  { e with
    faultAddr := f.addr, faultCode := f.code,
    done := e.done || erccEnabled e, irq := e.irq || erccEnabled e }

/-- The error of a physical word, if it has one. -/
def findFault (s : State) (pa : Nat) : Option MemFault := s.memFaults.find? fun f => decide (f.addr.toNat = pa)

/-- The errors of the other words. -/
def dropFault (l : List MemFault) (pa : Nat) : List MemFault := l.filter fun f => decide (f.addr.toNat ≠ pa)

/-- The state with an installed word written, its check code with it. -/
def storeWord (pa : Nat) (v : Word) (s : State) : State :=
  { s with mem := Memory.writeWord s.mem pa v, memFaults := dropFault s.memFaults pa }

/-- The state after the read of a word in error: where reads are checked and the check finds it the error is recorded, and
the word rewritten as corrected if it is (46_io R554, R557). -/
def faultFound (f : MemFault) (s : State) : State :=
  if erccChecks s.ercc && decide (faultMeaning f.code ≠ .noError) then
    if corrects f.code then { storeWord f.addr.toNat (mendedWord s.mem f) s with ercc := erccRecord f s.ercc }
    else { s with ercc := erccRecord f s.ercc }
  else s

/-- The word that read delivers: corrected where it is checked and can be, else as it stands (46_io R554). -/
def faultyWord (f : MemFault) (s : State) : Word :=
  if erccChecks s.ercc then mendedWord s.mem f else rawWord s.mem f

/-- A physical word: beyond installed memory any value. -/
def physRead (pa : Nat) : M Word := do
  let s ← get
  if pa < s.cfg.boards.words then
    match findFault s pa with
    | some f =>
      set (faultFound f s)
      pure (faultyWord f s)
    | none => pure (Memory.readWord s.mem pa)
  else drawFree 16

/-- A word is in error in these bits, or in none, in place of an error it may have had (46_io R554, R557). -/
def putError (addr : BitVec 20) (data : Word) (check : BitVec 6) : M Unit := do
  modify fun s => { s with memFaults := dropFault s.memFaults addr.toNat }
  if data = 0 && check = 0 then pure ()
  else
    let x ← drawFree 6
    modify fun s => { s with memFaults := ⟨addr, data, check, errorCode data check x⟩ :: s.memFaults }

/-- A word in error written without a check code: the old check bits stand beside the new word, which is in error where it
differs from the word they belong to; nothing changes where the word already reads so (46_io R555; log 45). -/
def writeUnchecked (f : MemFault) (v : Word) : M Unit := do
  let s ← get
  if v = rawWord s.mem f then pure () else putError f.addr (v ^^^ Memory.readWord s.mem f.addr.toNat) f.check

/-- Write a physical word: beyond installed memory no effect. A word not in error is plain storage in every mode of the
checking (46_io R554, R555; log 45). -/
def physWrite (pa : Nat) (v : Word) : M Unit := do
  let s ← get
  if pa < s.cfg.boards.words then
    match findFault s pa with
    | some f => if erccWrites s.ercc then set (storeWord pa v s) else writeUnchecked f v
    | none => set { s with mem := Memory.writeWord s.mem pa v }
  else pure ()

/-! ## The data channel (46_io R516, 47_map R590, 60_exceptions R625) -/

/-- The logical page of an address (20_memory R104). -/
def logicalPage (a : Addr) : BitVec 5 := a.extractLsb' 10 5

/-- The offset within a page (20_memory R104). -/
def pageOffset (a : Addr) : Nat := a.toNat % 1024

/-- The entry of a map for a logical page. -/
def PageMap.entry (m : PageMap) (p : BitVec 5) : MapEntry := m.get p.toFin

/-- The physical word address an entry gives (47_map R576). -/
def entryPhys (e : MapEntry) (a : Addr) : Nat := e.ppage.toNat * 1024 + pageOffset a

/-- The physical address of a data channel reference: through the controller's data channel map where data channel mapping
is on, with no protection; else the address itself (47_map R590). -/
def dchPhys (s : State) (map : AcNo) (a : Addr) : Nat :=
  if s.ms.dch then entryPhys (PageMap.entry (s.dmap.get map) (logicalPage a)) a else a.toNat

/-- One transfer. It is no reference of the user's and leaves MS.SC, whatever map it goes through: the spec is silent there
(47_map R590, R594; log 57). -/
def dchTransfer (r : DchRequest) : M Unit :=
  match r with
  | .read map a => do
    let s ← get
    let v ← physRead (dchPhys s map a)
    emit (.dchData v)
  | .write map a v => do
    let s ← get
    physWrite (dchPhys s map a) v

/-- Transfers, one after the other. -/
def dchTransfers : List DchRequest → M Unit
  | [] => pure ()
  | r :: rs => do
    dchTransfer r
    dchTransfers rs

/-- The transfers that fall before the processor's next memory reference (60_exceptions R625, 20_memory R146; log 48). -/
def dchService : M Unit := do
  let s ← get
  match s.dchDue with
  | [] => pure ()
  | rs :: due =>
    set { s with dchDue := due }
    dchTransfers rs

/-- The processor reads a physical word. -/
def cpuRead (pa : Nat) : M Word := do
  dchService
  physRead pa

/-- The processor writes a physical word. -/
def cpuWrite (pa : Nat) (v : Word) : M Unit := do
  dchService
  physWrite pa v

/-! ## Translation and protection -/

/-- The physical word address in unmapped mode: only logical page 31 is mapped (47_map R575). -/
def unmappedPhys (s : State) (a : Addr) : Nat :=
  if logicalPage a = 31 then s.p31.toNat * 1024 + pageOffset a else a.toNat

/-- An entry is invalid when its write-protect bit and all its page bits are one (47_map R572). -/
def MapEntry.invalid (e : MapEntry) : Bool := e.wp && decide (e.ppage = 0o1777)

/-- A map with the entry for a logical page replaced. -/
def PageMap.setEntry (m : PageMap) (p : BitVec 5) (e : MapEntry) : PageMap := m.set p.toNat e p.isLt

/-- The entry of the selected user map for the page of an address (47_map R574). -/
def userEntry (s : State) (a : Addr) : MapEntry := PageMap.entry (s.umap.get s.ms.nme) (logicalPage a)

/-- Write protection applies to a reference through this entry (47_map R578). -/
def writeProtected (s : State) (e : MapEntry) : Bool := s.ms.wpe && e.wp

/-- A mapped reference that is not a single-cycle one clears MS.SC (47_map R594, D28). -/
def clearSc : M Unit := modify fun s => { s with ms := { s.ms with sc := false } }

/-- `MemRead(a, 1)`: one word at a logical address, translated and checked for validity (20_memory R102; 47_map R575 to
R577). -/
def memRead (a : Addr) : M Word := do
  let s ← get
  if s.mapOn then
    if (userEntry s a).invalid then stop (.mapFault .validity)
    else
      clearSc
      cpuRead (entryPhys (userEntry s a) a)
  else cpuRead (unmappedPhys s a)

/-- A write at a logical address by `wr`: validity, then write protection, then the write (47_map R576 to R578, R586). -/
def memWriteBy (wr : Nat → Word → M Unit) (a : Addr) (v : Word) : M Unit := do
  let s ← get
  if s.mapOn then
    if (userEntry s a).invalid then stop (.mapFault .validity)
    else if writeProtected s (userEntry s a) then stop (.mapFault .write)
    else
      clearSc
      wr (entryPhys (userEntry s a) a) v
  else wr (unmappedPhys s a) v

/-- `MemWrite(a, 1, v)` (20_memory R102). -/
def memWrite (a : Addr) (v : Word) : M Unit := memWriteBy cpuWrite a v

/-- The write of an instruction that has held the memory bus since its read: no data channel transfer falls between the two
(20_memory R141). -/
def memWriteHeld (a : Addr) (v : Word) : M Unit := memWriteBy physWrite a v

/-! ## MAP single cycle (47_map R598) -/

/-- The single-cycle reference is made: the pending flag falls and MS.SC is set. -/
def singleCycleDone : M Unit :=
  modify fun s => { s with scPending := false, ms := { s.ms with sc := true } }

/-- The data reads of LDA and ELDA, pointers included: the first one after NIOP MAP goes through the selected user map, with
no fault; an invalid page delivers any value. Where a user enable is pending as well, the first pointer read of a chain is
still the mapped one, and the enable completes after it (47_map R598, R601; log 24). -/
def dataRead (a : Addr) : M Word := do
  let s ← get
  if s.scPending then
    singleCycleDone
    if (userEntry s a).invalid then drawFree 16 else cpuRead (entryPhys (userEntry s a) a)
  else memRead a

/-- The data writes of STA and ESTA: the first reference after NIOP MAP goes through the selected user map, with no fault; a
write to an invalid or protected page is discarded (47_map R598, D31). -/
def dataWrite (a : Addr) (v : Word) : M Unit := do
  let s ← get
  if s.scPending then
    singleCycleDone
    if (userEntry s a).invalid || writeProtected s (userEntry s a) then pure ()
    else cpuWrite (entryPhys (userEntry s a) a) v
  else memWrite a v

/-! ## Indirection (20_memory R114) -/

/-- A pending user enable takes effect: after the first pointer read of any instruction, and at the end of POPB, POPJ, RTN
and RSTR (47_map R601; log 23). -/
def completeEnable : M Unit :=
  modify fun s => if s.mapPending then { s with mapOn := true, mapPending := false } else s

/-- Indirect protection stops the sixteenth pointer read (47_map R585). -/
def indirectLimit (s : State) (level : Nat) : Bool := s.mapOn && s.ms.indp && decide (15 ≤ level)

/-- Follow an indirection chain from pointer word `a`, `level` pointer words having been read. `rd` reads a pointer. The fuel
bounds an endless chain (20_memory R115; log 18). -/
def chain (rd : Addr → M Word) : Nat → Nat → Addr → M Addr
  | 0, _, _ => stop (.fault .indirectionLoop)
  | fuel + 1, level, a => do
    let s ← get
    if indirectLimit s level then stop (.mapFault .indirect)
    else
      let p ← rd a
      completeEnable
      if p.msb then chain rd fuel (level + 1) (p.setWidth 15) else pure (p.setWidth 15)

/-- The effective address of an intermediate address with its indirect bit (20_memory R114). -/
def resolveBy (rd : Addr → M Word) (ind : Bool) (ia : Addr) : M Addr :=
  if ind then chain rd chainFuel 0 ia else pure ia

/-- As `resolveBy`, with ordinary pointer reads. -/
def resolve (ind : Bool) (ia : Addr) : M Addr := resolveBy memRead ind ia

/-- `Resolve(w)`: bit 0 of the word is its indirect bit, bits 1-15 the intermediate address (45_program_flow R476). -/
def resolveWord (w : Word) : M Addr := resolve w.msb (w.setWidth 15)

/-- `Indirect(loc)`: the word at the location is the first pointer of a chain (20_memory R117). -/
def indirectAt (loc : Addr) : M Addr := resolve true loc

/-! ## The stack (44_stack R431 to R435) -/

/-- The stack pointer's location. -/
def spLoc : Addr := 0o40
/-- The frame pointer's location. -/
def fpLoc : Addr := 0o41
/-- The stack limit's location. -/
def slLoc : Addr := 0o42
/-- The stack fault address's location. -/
def sfaLoc : Addr := 0o43

/-- A word whose bit 0 is `b` and whose bits 1-15 are `a`. -/
def joinWord (b : Bool) (a : Addr) : Word := BitVec.ofBool b ++ a

/-- `Push(v)` (44_stack R431). -/
def push (v : Word) : M Unit := do
  let sp ← memRead spLoc
  memWrite ((sp + 1).setWidth 15) v
  memWrite spLoc (sp + 1)

/-- `Pop()` (44_stack R431). -/
def pop : M Word := do
  let sp ← memRead spLoc
  let v ← memRead (sp.setWidth 15)
  memWrite spLoc (sp - 1)
  pure v

/-- Push an accumulator. -/
def pushAc (i : AcNo) : M Unit := do
  let v ← getAc i
  push v

/-- `PushBlock(pcval)`: AC0 to AC3, then carry with a program counter value (44_stack R432). -/
def pushBlock (pcval : Addr) : M Unit := do
  pushAc 0
  pushAc 1
  pushAc 2
  pushAc 3
  let s ← get
  push (joinWord s.cry pcval)

/-- The stack fault sequence (44_stack R435): bit 0 of the pointer cleared, bit 0 of the limit set, a return block pushed
unchecked, a jump indirect through location 43. -/
def stackFault (pcval : Addr) : M Unit := do
  let sp ← memRead spLoc
  memWrite spLoc (sp &&& 0o077777)
  let sl ← memRead slLoc
  memWrite slLoc (sl ||| 0o100000)
  pushBlock pcval
  let t ← indirectAt sfaLoc
  setPc t

/-- The end of an instruction that pushed: the overflow check, and either the stack fault with the program counter value the
instruction would have completed with, or that value (44_stack R434, R435). -/
def finishAt (pcval : Addr) : M Unit := do
  let sp ← memRead spLoc
  let sl ← memRead slLoc
  if sl.toNat < sp.toNat then stackFault pcval else setPc pcval

/-! ## Taking an exception, and the return from one -/

/-- The one trap sequence of the machine: a return block holding `ret`, a jump indirect through `loc`, then the stack check
with the handler's address (44_stack R432; 60_exceptions R620, R656). -/
def takeTrap (loc ret : Addr) : M Unit := do
  pushBlock ret
  let t ← indirectAt loc
  finishAt t

/-- Pop the four accumulators of a return block, AC3 first (44_stack R443). -/
def popAcs : M Unit := do
  let a3 ← pop
  setAc 3 a3
  let a2 ← pop
  setAc 2 a2
  let a1 ← pop
  setAc 1 a1
  let a0 ← pop
  setAc 0 a0

/-- The return from a trap: pop carry and program counter, then the accumulators (44_stack R443). The program counter is
given back to the caller, which loads it last. -/
def popBlock : M Addr := do
  let w ← pop
  setCry w.msb
  popAcs
  pure (w.setWidth 15)

/-! ## MAP protection faults and the end of an instruction -/

/-- The MAP protection fault sequence (47_map R582, R584): the kind recorded, the map off, a return block on the unmapped
stack with an unpredictable program counter, a jump indirect through location 3. The pending enable falls with the map
(log 46); no fault is taken while one is pending. -/
def mapFaultEntry (k : MapFaultKind) : M Unit := do
  modify fun s =>
    { s with
      ms := { s.ms with fIo := decide (k = .io), fWp := decide (k = .write), fInd := decide (k = .indirect) },
      mapOn := false, mapPending := false }
  let ret ← drawFree 15
  takeTrap 3 ret

/-- The outcome of a piece of the machine in which no MAP fault can occur. -/
def outcomeOf : EStateM.Result Stop State Unit → Host.Outcome State Fault Refusal
  | .ok _ s => .next s
  | .error (.mapFault _) _ => .fault .nestedMapFault
  | .error (.fault f) _ => .fault f
  | .error (.refusal r) _ => .refused r

/-- The outcome of an instruction: a MAP protection fault runs its sequence from the state the fault left (47_map R582). -/
def finish : EStateM.Result Stop State Unit → Host.Outcome State Fault Refusal
  | .error (.mapFault k) s => outcomeOf (mapFaultEntry k s)
  | r => outcomeOf r

/-- Run an instruction. -/
def runInstr (m : M Unit) (s : State) : Host.Outcome State Fault Refusal := finish (m s)

end Sys2Proof.Machine
end

