-- ==== Sys2Proof/Machine/Flags.lean ====
section
/-!
DEFINITION. Every flag computation: the ALC carry, shift and skip stages (40_fixed_point_alc R201 to R205), the images of the
floating-point status register (43_floating_point R406, R407), its error bits and its Z and N (R335, R337), and the
floating-point fault check (R340).
-/

namespace Sys2Proof.Machine

/-! ## ALC -/

/-- Carry initialisation (40_fixed_point_alc R203). -/
def carryInit (cf : CarryInit) (c : Bool) : Bool :=
  match cf with
  | .current => c
  | .zero => false
  | .one => true
  | .complement => !c

/-- The shifter, on carry and result (40_fixed_point_alc R202). -/
def alcShift (sh : Shift) (c : Bool) (r : Word) : Bool × Word :=
  match sh with
  | .none => (c, r)
  | .left => (r.msb, r.extractLsb' 0 15 ++ BitVec.ofBool c)
  | .right => (r.getLsbD 0, BitVec.ofBool c ++ r.extractLsb' 1 15)
  | .swap => (c, wordOfBytes (lowByte r) (highByte r))

/-- The skip test, on the shifter's output (40_fixed_point_alc R204). -/
def alcSkip (sk : Skip) (c : Bool) (r : Word) : Bool :=
  match sk with
  | .never => false
  | .always => true
  | .szc => !c
  | .snc => c
  | .szr => decide (r = 0)
  | .snr => decide (r ≠ 0)
  | .sez => !c || decide (r = 0)
  | .sbn => c && decide (r ≠ 0)

/-- A 17-bit sum as the carry out of bit 0 and the low 16 bits (40_fixed_point_alc R203). -/
def sum17 (n : Nat) : Bool × Word := (decide (65536 ≤ n), BitVec.ofNat 16 n)

/-- ADC: the complement of the source added to the destination (40_fixed_point_alc R210). -/
def fnAdc (s d : Word) : Bool × Word := sum17 (d.toNat + (~~~s).toNat)

/-- ADD (40_fixed_point_alc R211). -/
def fnAdd (s d : Word) : Bool × Word := sum17 (d.toNat + s.toNat)

/-- AND (40_fixed_point_alc R212). -/
def fnAnd (s d : Word) : Bool × Word := (false, s &&& d)

/-- COM (40_fixed_point_alc R213). -/
def fnCom (s _d : Word) : Bool × Word := (false, ~~~s)

/-- INC (40_fixed_point_alc R214). -/
def fnInc (s _d : Word) : Bool × Word := sum17 (s.toNat + 1)

/-- MOV (40_fixed_point_alc R215). -/
def fnMov (s _d : Word) : Bool × Word := (false, s)

/-- NEG (40_fixed_point_alc R216). -/
def fnNeg (s _d : Word) : Bool × Word := sum17 ((~~~s).toNat + 1)

/-- SUB (40_fixed_point_alc R217). -/
def fnSub (s d : Word) : Bool × Word := sum17 (d.toNat + (~~~s).toNat + 1)

/-- The output of the shifter: carry initialised, complemented by the carry out, shifted with the result
(40_fixed_point_alc R201). -/
def alcResult (fn : Word → Word → Bool × Word) (o : AlcOps) (c : Bool) (s d : Word) : Bool × Word :=
  alcShift o.shift (carryInit o.carry c ^^ (fn s d).1) (fn s d).2

/-! ## The floating-point status register -/

/-- ANY: the OR of bits 1 to 4 (10_state R26). -/
def Fpsr.any (f : Fpsr) : Bool := f.ovf || f.unf || f.dvz || f.mof

/-- FPSR bits 0-15 as FSST stores them; bits 8, 10, 11 are zero and bits 12-15 the implementation code 1000
(43_floating_point R406). -/
def Fpsr.word1 (f : Fpsr) : Word :=
  BitVec.ofBool (Fpsr.any f) ++ BitVec.ofBool f.ovf ++ BitVec.ofBool f.unf ++ BitVec.ofBool f.dvz ++
    BitVec.ofBool f.mof ++ BitVec.ofBool f.te ++ BitVec.ofBool f.z ++ BitVec.ofBool f.n ++
    (0 : BitVec 1) ++ BitVec.ofBool f.res ++ (0 : BitVec 2) ++ (8 : BitVec 4)

/-- FPSR bits 16-31 as FSST stores them (43_floating_point R406). -/
def Fpsr.word2 (f : Fpsr) : Word := joinWord false f.fppc

/-- `LoadFPSR(w1, w2)`: bit 0 and the reserved bits are ignored (43_floating_point R407). -/
def Fpsr.ofWords (w1 w2 : Word) : Fpsr where
  ovf := w1.getMsbD 1
  unf := w1.getMsbD 2
  dvz := w1.getMsbD 3
  mof := w1.getMsbD 4
  te := w1.getMsbD 5
  z := w1.getMsbD 6
  n := w1.getMsbD 7
  res := w1.getMsbD 9
  fppc := w2.setWidth 15

/-- FPSR becomes `f`. -/
def setFpsr (f : Fpsr) : M Unit := modify fun s => { s with fpsr := f }

/-- A change of FPSR. -/
def modifyFpsr (g : Fpsr → Fpsr) : M Unit := modify fun s => { s with fpsr := g s.fpsr }

/-- The error bits an instruction detects. -/
structure FpErr where
  ovf : Bool
  unf : Bool
  dvz : Bool
  mof : Bool
  deriving DecidableEq, Repr

/-- No error. -/
def FpErr.none : FpErr := ⟨false, false, false, false⟩

/-- Some error bit. -/
def FpErr.some (e : FpErr) : Bool := e.ovf || e.unf || e.dvz || e.mof

/-- `SetErr`: the bits detected are set, the others keep their values, and FPPC becomes the address of the instruction that
detected one (43_floating_point R335). -/
def Fpsr.withErr (f : Fpsr) (e : FpErr) (i : Addr) : Fpsr :=
  { f with
    ovf := f.ovf || e.ovf, unf := f.unf || e.unf, dvz := f.dvz || e.dvz, mof := f.mof || e.mof,
    fppc := if FpErr.some e then i else f.fppc }

/-- The Z of a 64-bit value: a zero mantissa (43_floating_point R337). -/
def fpZero (x : QWord) : Bool := decide (x.extractLsb' 0 56 = 0)

/-- The N of a 64-bit value: negative with a nonzero mantissa (43_floating_point R337). -/
def fpNeg (x : QWord) : Bool := x.msb && !fpZero x

/-- `SetZN(x)` (43_floating_point R337). -/
def Fpsr.withZN (f : Fpsr) (x : QWord) : Fpsr := { f with z := fpZero x, n := fpNeg x }

/-- `FPCheck()` at the end of a checking instruction of `len` words: with ANY and TE both one, TE falls and the fault is taken
through location 45 with the next sequential address (43_floating_point R340). -/
def fpCheck (len : Nat) : M Unit := do
  let s ← get
  if Fpsr.any s.fpsr && s.fpsr.te then
    setFpsr { s.fpsr with te := false }
    takeTrap 0o45 (s.pc + BitVec.ofNat 15 len)
  else advance len

end Sys2Proof.Machine
end

