-- ==== Sys2Proof/Machine/Operands.lean ====
section
/-!
DEFINITION. Every operand form: effective addresses (20_memory R112 to R114), byte pointers (R120 to R122), bit pointers
(R125 to R127), the length and direction words of the character instructions (42_data_movement, section 5), and the double
accumulator pairs.
-/

namespace Sys2Proof.Machine

/-! ## Effective addresses -/

/-- The address part of an accumulator used as an index: bit 0 is ignored (20_memory R112). -/
def indexOf (s : State) (i : AcNo) : Addr := (s.ac.get i).setWidth 15

/-- The intermediate address of the short field; PC relative to the instruction word (20_memory R112). -/
def shortIa (s : State) (ea : ShortAddr) : Addr :=
  match ea.idx with
  | .abs => ea.disp.setWidth 15
  | .pc => s.pc + ea.disp.signExtend 15
  | .ac2 => indexOf s 2 + ea.disp.signExtend 15
  | .ac3 => indexOf s 3 + ea.disp.signExtend 15

/-- The intermediate address of the extended field; PC relative to the displacement word (20_memory R113). -/
def extIa (s : State) (ea : ExtAddr) : Addr :=
  match ea.idx with
  | .abs => ea.disp
  | .pc => s.pc + 1 + ea.disp
  | .ac2 => indexOf s 2 + ea.disp
  | .ac3 => indexOf s 3 + ea.disp

/-- The short effective address E (20_memory R112, R114). -/
def shortEa (ea : ShortAddr) : M Addr := do
  let s ← get
  resolve ea.ind (shortIa s ea)

/-- The extended effective address E (20_memory R113, R114). -/
def extEa (ea : ExtAddr) : M Addr := do
  let s ← get
  resolve ea.ind (extIa s ea)

/-- The short effective address of LDA and STA, whose first data reference may be a MAP single cycle (47_map R598). -/
def shortEaData (ea : ShortAddr) : M Addr := do
  let s ← get
  resolveBy dataRead ea.ind (shortIa s ea)

/-- The extended effective address of ELDA and ESTA, whose first data reference may be a MAP single cycle (47_map R598). -/
def extEaData (ea : ExtAddr) : M Addr := do
  let s ← get
  resolveBy dataRead ea.ind (extIa s ea)

/-- An accumulator that holds an address "possibly indirect": where its bit 0 is one, the chain is followed and the result,
bit 0 zero, placed in it (42_data_movement R300; 47_map R591). -/
def resolveAc (i : AcNo) : M Unit := do
  let v ← getAc i
  if v.msb then
    let a ← resolve true (v.setWidth 15)
    setAc i (joinWord false a)
  else pure ()

/-! ## Bytes -/

/-- The word a byte pointer addresses (20_memory R120). -/
def bpWord (bp : Word) : Addr := bp.extractLsb' 1 15

/-- The byte indicator: true selects the right byte (20_memory R120). -/
def bpRight (bp : Word) : Bool := bp.getLsbD 0

/-- The byte of a word an indicator selects (20_memory R121). -/
def byteOf (w : Word) (right : Bool) : BitVec 8 := if right then lowByte w else highByte w

/-- A word with the byte an indicator selects replaced (20_memory R121). -/
def withByte (w : Word) (right : Bool) (b : BitVec 8) : Word :=
  if right then wordOfBytes (highByte w) b else wordOfBytes b (lowByte w)

/-- Read the byte at a word address and indicator. -/
def byteReadAt (a : Addr) (right : Bool) : M (BitVec 8) := do
  let w ← memRead a
  pure (byteOf w right)

/-- Write the byte at a word address and indicator: a read and a write of the word (20_memory R121). -/
def byteWriteAt (a : Addr) (right : Bool) (b : BitVec 8) : M Unit := do
  let w ← memRead a
  memWrite a (withByte w right b)

/-- `ByteRead(bp)` (20_memory R121). -/
def byteRead (bp : Word) : M (BitVec 8) := byteReadAt (bpWord bp) (bpRight bp)

/-- `ByteWrite(bp, b)` (20_memory R121). -/
def byteWrite (bp : Word) (b : BitVec 8) : M Unit := byteWriteAt (bpWord bp) (bpRight bp) b

/-- The offset the index bits of ELDB and ESTB give (42_data_movement R292). -/
def byteIndex (s : State) (x : Index) : Addr :=
  match x with
  | .abs => 0
  | .pc => s.pc + 1
  | .ac2 => indexOf s 2
  | .ac3 => indexOf s 3

/-- The word ELDB and ESTB address: the offset plus the displacement shifted right one bit (42_data_movement R292). -/
def extByteAddr (s : State) (x : Index) (disp : Word) : Addr := byteIndex s x + bpWord disp

/-! ## Bits -/

/-- The mask of one bit of a word, numbered from the most significant (20_memory R125). -/
def bitMask (bit : BitVec 4) : Word := (0x8000 : Word) >>> bit.toNat

/-- One bit of a word, numbered from the most significant (20_memory R127). -/
def bitOf (w : Word) (bit : BitVec 4) : Bool := w.getMsbD bit.toNat

/-- The bit number of a bit pointer: ACD bits 12-15 (20_memory R125). -/
def bitNumber (d : Word) : BitVec 4 := d.setWidth 4

/-- The word offset of a bit pointer: ACD bits 0-11 (20_memory R125). -/
def bitOffset (d : Word) : Addr := (d.extractLsb' 4 12).setWidth 15

/-- The word address of a bit pointer: base 0 where ACS and ACD are one accumulator, else the word address in ACS, its chain
followed (20_memory R125, R126). -/
def bitWord (acs acd : AcNo) : M Addr := do
  let d ← getAc acd
  if acs = acd then pure (bitOffset d)
  else
    let w ← getAc acs
    let base ← resolveWord w
    pure (base + bitOffset d)

/-! ## Length and direction words (42_data_movement, section 5) -/

/-- `Step(L)` added to a byte pointer: up where bit 0 of L is zero, else down. -/
def stepBy (l bp : Word) : Word := if l.msb then bp - 1 else bp + 1

/-- `Dec(L)`: the length one toward zero. -/
def decLen (l : Word) : Word := if l.msb then l + 1 else l - 1

/-- The pad character, an ASCII space (42_data_movement R302). -/
def padByte : BitVec 8 := 0o40

/-! ## Double accumulators -/

/-- The 32 bits of an accumulator (high) and the next one (low); AC3 + 1 is AC0 (41_fixed_point R236). -/
def getPair (hi : AcNo) : M DWord := do
  let h ← getAc hi
  let l ← getAc (hi + 1)
  pure (h ++ l)

/-- Write the 32 bits of an accumulator pair, the high half first (41_fixed_point R236). -/
def setPair (hi : AcNo) (v : DWord) : M Unit := do
  setAc hi (v.extractLsb' 16 16)
  setAc (hi + 1) (v.extractLsb' 0 16)

end Sys2Proof.Machine
end

