-- ==== Sys2Proof/Machine/Alc.lean ====
section
/-!
DEFINITION. The arithmetic/logical class: one execution sequence for its eight instructions (40_fixed_point_alc R201).
-/

namespace Sys2Proof.Machine

/-- The ALC sequence: operands read, function, shift, skip test on the shifter's output, and the load unless the no-load bit
is set (40_fixed_point_alc R201, R205). -/
def alc (fn : Word → Word → Bool × Word) (o : AlcOps) : M Unit := do
  let s ← get
  let r := alcResult fn o s.cry (s.ac.get o.acs) (s.ac.get o.acd)
  if o.noLoad then pure ()
  else
    setAc o.acd r.2
    setCry r.1
  skipIf 1 (alcSkip o.skip r.1 r.2)

/-- ADC (40_fixed_point_alc R210). -/
def execAdc (o : AlcOps) (s : State) : Host.Outcome State Fault Refusal := runInstr (alc fnAdc o) s

/-- ADD (40_fixed_point_alc R211). -/
def execAdd (o : AlcOps) (s : State) : Host.Outcome State Fault Refusal := runInstr (alc fnAdd o) s

/-- AND (40_fixed_point_alc R212). -/
def execAnd (o : AlcOps) (s : State) : Host.Outcome State Fault Refusal := runInstr (alc fnAnd o) s

/-- COM (40_fixed_point_alc R213). -/
def execCom (o : AlcOps) (s : State) : Host.Outcome State Fault Refusal := runInstr (alc fnCom o) s

/-- INC (40_fixed_point_alc R214). -/
def execInc (o : AlcOps) (s : State) : Host.Outcome State Fault Refusal := runInstr (alc fnInc o) s

/-- MOV (40_fixed_point_alc R215). -/
def execMov (o : AlcOps) (s : State) : Host.Outcome State Fault Refusal := runInstr (alc fnMov o) s

/-- NEG (40_fixed_point_alc R216). -/
def execNeg (o : AlcOps) (s : State) : Host.Outcome State Fault Refusal := runInstr (alc fnNeg o) s

/-- SUB (40_fixed_point_alc R217). -/
def execSub (o : AlcOps) (s : State) : Host.Outcome State Fault Refusal := runInstr (alc fnSub o) s

end Sys2Proof.Machine
end

