-- ==== Sys2Proof/Machine/Devices.lean ====
section
/-!
DEFINITION. The processor's side of the I/O system: device codes, flags and flag commands (46_io R500 to R506, R545 to
R558), the priority mask (R517, R525), interrupt requests and their acknowledgement (60_exceptions R622, R624), the I/O
reset (46_io R526, 47_map R600) and the I/O protection check (47_map R579).
-/

namespace Sys2Proof.Machine

/-- A 6-bit device code (46_io R500). -/
abbrev DevCode := BitVec 6

/-- The APL register's code. -/
def devApl : DevCode := 1
/-- ERCC's code. -/
def devErcc : DevCode := 2
/-- The MAP's code. -/
def devMap : DevCode := 3
/-- The receiver's code. -/
def devTti : DevCode := 0o10
/-- The transmitter's code. -/
def devTto : DevCode := 0o11
/-- The real-time clock's code. -/
def devRtc : DevCode := 0o14
/-- The interval timer's code. -/
def devPit : DevCode := 0o43
/-- The CPU's code. -/
def devCpu : DevCode := 0o77

/-- The devices on the processor board, the CPU excepted (10_state R41). -/
def isBoard (d : DevCode) : Bool :=
  decide (d = devApl) || decide (d = devErcc) || decide (d = devMap) || decide (d = devTti) || decide (d = devTto) ||
    decide (d = devRtc) || decide (d = devPit)

/-! ## External controllers -/

/-- The mask bits of Appendix A for the codes of external controllers that have one row (46_io R517): none for 23 and 63; the
two rows of 34 are `ExtKind.cas` and `ExtKind.mx1`. -/
def listedBit (d : DevCode) : Option (BitVec 4) :=
  match d.toNat with
  | 0o06 => some 12
  | 0o07 => some 12
  | 0o12 => some 11
  | 0o13 => some 13
  | 0o15 => some 12
  | 0o16 => some 10
  | 0o17 => some 12
  | 0o21 => some 9
  | 0o22 => some 10
  | 0o24 => some 0
  | 0o26 => some 9
  | 0o30 => some 14
  | 0o31 => some 13
  | 0o32 => some 13
  | 0o35 => some 11
  | 0o36 => some 6
  | 0o37 => some 6
  | 0o40 => some 8
  | 0o41 => some 8
  | 0o42 => some 7
  | 0o44 => some 12
  | 0o46 => some 12
  | 0o47 => some 12
  | 0o50 => some 14
  | 0o51 => some 15
  | 0o52 => some 11
  | 0o54 => some 13
  | 0o55 => some 12
  | 0o56 => some 10
  | 0o57 => some 12
  | 0o61 => some 9
  | 0o62 => some 10
  | 0o65 => some 5
  | 0o66 => some 9
  | 0o67 => some 7
  | 0o70 => some 14
  | 0o73 => some 7
  | 0o74 => some 10
  | _ => none

/-- The table has a row for a code (46_io R517). -/
def hasRow (d : DevCode) : Bool :=
  (listedBit d).isSome || decide (d = 0o23) || decide (d = 0o63) || decide (d = 0o34)

/-- The mask bit of an external controller (46_io R517 and its footnotes). -/
def maskBit (x : ExtDevice) : Option (BitVec 4) :=
  match x.kind with
  | .listed => listedBit x.code
  | .cas => some 10
  | .mx1 => some 11
  | .dpi => some 8
  | .dpo => some 8
  | .dcu => some 4
  | .iop micro => if micro then none else some 5
  | .other b => b

/-- A device stands at the code of its row, one that can be moved at a code its footnote allows, and one of no readable row at
a code that has none (46_io R517; log 35). -/
def codeFits (x : ExtDevice) : Bool :=
  match x.kind with
  | .listed => hasRow x.code && decide (x.code ≠ 0o34)
  | .cas => decide (x.code = 0o34)
  | .mx1 => decide (x.code = 0o34)
  | .dpi => decide (0o40 ≤ x.code.toNat) && !x.code.getLsbD 0
  | .dpo => decide (0o41 ≤ x.code.toNat) && x.code.getLsbD 0
  | .dcu => true
  | .iop _ => decide (x.code = 0o65)
  | .other _ => !hasRow x.code

/-- A mask bit is one (46_io R525); bit 0 is the most significant. -/
def masked (s : State) (b : BitVec 4) : Bool := s.mask.getMsbD b.toNat

/-- The Interrupt Disable flag of an external controller (46_io R525). -/
def extIdis (s : State) (x : ExtDevice) : Bool :=
  match maskBit x with
  | some b => masked s b
  | none => false

/-- The external controller that answers to a code. -/
def findExt (s : State) (d : DevCode) : Option ExtDevice := s.ext.find? fun x => decide (x.code = d)

/-- The external controllers with the one that answers to a code changed. -/
def mapExt (d : DevCode) (g : ExtDevice → ExtDevice) (l : List ExtDevice) : List ExtDevice :=
  l.map fun x => if x.code = d then g x else x

/-! ## Flags -/

/-- Busy and Done of a device (46_io R503, R506, R528; 47_map R570): zero for a device that has none or is absent. -/
def deviceFlags (s : State) (d : DevCode) : Bool × Bool :=
  if d = devTti then (s.tti.busy, s.tti.done)
  else if d = devTto then (s.tto.busy, s.tto.done)
  else if d = devRtc then (s.rtc.busy, s.rtc.done)
  else if d = devPit then (s.pit.busy, s.pit.done)
  else if d = devErcc then (false, s.ercc.done)
  else if d = devCpu then (s.ion, s.pf)
  else if isBoard d then (false, false)
  else
    match findExt s d with
    | some x => (x.busy, x.done)
    | none => (false, false)

/-- The test of a skip on Busy and Done (46_io R505). -/
def skipTest (t : SkipTest) (busy done : Bool) : Bool :=
  match t with
  | .bn => busy
  | .bz => !busy
  | .dn => done
  | .dz => !done

/-- The flag commands of TTI (46_io R545). -/
def ttiCommand (f : IoFlag) (t : Tti) : Tti :=
  match f with
  | .none => t
  | .start => { t with busy := true, done := false, overrun := false, parity := false }
  | .clear => { t with busy := false, done := false, overrun := false, parity := false }
  | .pulse => { t with brk := false }

/-- The flag commands of TTO (46_io R547). -/
def ttoCommand (f : IoFlag) (t : Tto) : Tto :=
  match f with
  | .none => t
  | .start => { t with busy := true, done := false }
  | .clear => { t with busy := false, done := false }
  | .pulse => t

/-- The flag commands of RTC (46_io R549). -/
def rtcCommand (f : IoFlag) (t : Rtc) : Rtc :=
  match f with
  | .none => t
  | .start => { t with busy := true, done := false }
  | .clear => { t with busy := false, done := false }
  | .pulse => t

/-- The flag commands of PIT: Start loads the counter (46_io R551). -/
def pitCommand (f : IoFlag) (t : Pit) : Pit :=
  match f with
  | .none => t
  | .start => { t with busy := true, done := false, cnt := t.icr }
  | .clear => { t with busy := false, done := false }
  | .pulse => t

/-- The flag commands of ERCC (46_io R554). -/
def erccCommand (f : IoFlag) (t : Ercc) : Ercc :=
  match f with
  | .none => t
  | .start => { t with done := false, irq := false }
  | .clear => t
  | .pulse => t

/-- The flag commands of an ordinary device (46_io R504). -/
def extCommand (f : IoFlag) (t : ExtDevice) : ExtDevice :=
  match f with
  | .none => t
  | .start => { t with busy := true, done := false }
  | .clear => { t with busy := false, done := false }
  | .pulse => t

/-- The flag command of an instruction to an external controller, if one answers (46_io R504, R506). -/
def extFlagCommand (f : IoFlag) (d : DevCode) : M Unit := do
  let s ← get
  if f = .none then pure ()
  else
    match findExt s d with
    | some _ =>
      set { s with ext := mapExt d (extCommand f) s.ext }
      emit (.extFlag d f)
    | none => pure ()

/-- The flag command of an instruction to a device, after its data transfer (46_io R504). -/
def flagCommand (f : IoFlag) (d : DevCode) : M Unit :=
  if d = devTti then modify fun s => { s with tti := ttiCommand f s.tti }
  else if d = devTto then modify fun s => { s with tto := ttoCommand f s.tto }
  else if d = devRtc then modify fun s => { s with rtc := rtcCommand f s.rtc }
  else if d = devPit then modify fun s => { s with pit := pitCommand f s.pit }
  else if d = devErcc then modify fun s => { s with ercc := erccCommand f s.ercc }
  else if isBoard d then pure ()
  else extFlagCommand f d

/-! ## Interrupt requests -/

/-- The device of a code is requesting an interrupt; code 0 is the power-fail facility (60_exceptions R622, 46_io R559). -/
def requesting (s : State) (d : DevCode) : Bool :=
  if d = 0 then s.pf
  else if d = devErcc then s.ercc.done && erccEnabled s.ercc
  else if d = devTti then s.tti.done && !masked s 14
  else if d = devTto then s.tto.done && !masked s 15
  else if d = devRtc then s.rtc.done && !masked s 13
  else if d = devPit then s.pit.done && !masked s 6
  else if isBoard d || decide (d = devCpu) then false
  else
    match findExt s d with
    | some x => x.done && !extIdis s x
    | none => false

/-- Every device code, ascending. -/
def allCodes : List DevCode := (List.range 64).map (BitVec.ofNat 6)

/-- IRQ (60_exceptions R622). -/
def irq (s : State) : Bool := allCodes.any (requesting s)

/-- `AckCode()`: the first requesting device in priority order, 77 octal where none requests; the codes that `INT_PRIORITY`
does not list come after those it lists, ascending, which completes a list the host gives in part (46_io R524, D43; log
36). -/
def ackCode (s : State) : DevCode := ((s.cfg.intPriority ++ allCodes).find? (requesting s)).getD devCpu

/-! ## The CPU's flag commands -/

/-- f of an I/O instruction to the CPU (46_io R520): S sets ION, with the hold of R522 where it was zero; C clears it; P
clears the virtual console interrupts. -/
def cpuCommand (f : IoFlag) (s : State) : State :=
  match f with
  | .none => s
  | .start => { s with ion := true, ionHold := if s.ion then s.ionHold else .held }
  | .clear => { s with ion := false }
  | .pulse => { s with con := ⟨false, false, false, false, false, false⟩ }

/-! ## I/O protection and I/O reset -/

/-- An I/O-format instruction under I/O protection, LEF mode off, is a MAP protection fault and nothing else (47_map R579). -/
def ioProtect : M Unit := do
  let s ← get
  if s.mapOn && !s.ms.lef && s.ms.iop then stop (.mapFault .io) else pure ()

/-- The MAP's part of an I/O reset: status bits 6 to 12 and the maps stand (47_map R600). -/
def resetMap (s : State) : State :=
  { s with
    mapOn := false, mapPending := false, scPending := false, p31 := Config.page31Reset,
    ms := { s.ms with
      nme := 0, fIo := false, fWp := false, fInd := false, sc := false, dch := false, ue := false, um := false } }

/-- An I/O reset: every Busy and Done, the mask, the reset actions of the devices, the MAP (46_io R526, R545, R547, R549,
R551, R554). ION is not part of it. -/
def ioReset (s : State) : State :=
  let s := resetMap s
  { s with
    mask := 0
    tti := { s.tti with busy := false, done := false, brk := false, dtr := false }
    tto := { s.tto with busy := false, done := false }
    rtc := ⟨false, false, 0⟩
    pit := ⟨false, false, 0, 0⟩
    ercc := { s.ercc with done := false, irq := false, mode := s.ercc.mode &&& 4 }
    ext := s.ext.map fun x => { x with busy := false, done := false }
    outputs := .ioReset :: s.outputs }

end Sys2Proof.Machine
end

