-- ==== Sys2Proof/Machine/Io.lean ====
section
/-!
DEFINITION. The generic I/O instructions, to any device (46_io R506 to R515). A device on the processor board whose buffer no
rule describes delivers a free value and takes no data (log 34).
-/

namespace Sys2Proof.Machine

/-- What an absent device's input buffer reads as (46_io R506). -/
def absentWord : Word := 0o177777

/-- The contents of an input buffer of a device (46_io R506 to R509). -/
def readBuffer (buf : OutBuffer) (d : DevCode) : M Word := do
  let s ← get
  if isBoard d || decide (d = devCpu) then drawFree 16
  else
    match findExt s d with
    | some x =>
      match buf with
      | .a => pure x.inA
      | .b => pure x.inB
      | .c => pure x.inC
    | none => pure absentWord

/-- An external device with a word in an output buffer. -/
def putBuffer (buf : OutBuffer) (v : Word) (x : ExtDevice) : ExtDevice :=
  match buf with
  | .a => { x with outA := v }
  | .b => { x with outB := v }
  | .c => { x with outC := v }

/-- Place a word in an output buffer of a device (46_io R506, R510 to R512). -/
def writeBuffer (buf : OutBuffer) (d : DevCode) (v : Word) : M Unit := do
  let s ← get
  if isBoard d || decide (d = devCpu) then pure ()
  else
    match findExt s d with
    | some _ =>
      set { s with ext := mapExt d (putBuffer buf v) s.ext }
      emit (.extData d buf v)
    | none => pure ()

/-- An I/O instruction: the protection check, the transfer, the flag command, the next word (46_io R502, R504). -/
def ioInstr (transfer command : M Unit) : M Unit := do
  ioProtect
  transfer
  command
  advance 1

/-- A Data In transfer. -/
def dataIn (buf : OutBuffer) (ac : AcNo) (d : DevCode) : M Unit := do
  let v ← readBuffer buf d
  setAc ac v

/-- A Data Out transfer. -/
def dataOut (buf : OutBuffer) (ac : AcNo) (d : DevCode) : M Unit := do
  let v ← getAc ac
  writeBuffer buf d v

/-- NIO; the accumulator field is ignored (46_io R513). -/
def execNio (_ac : AcNo) (f : IoFlag) (dev : DevCode) (s : State) : Host.Outcome State Fault Refusal :=
  runInstr (ioInstr (pure ()) (flagCommand f dev)) s

/-- DIA (46_io R507). -/
def execDia (ac : AcNo) (f : IoFlag) (dev : DevCode) (s : State) : Host.Outcome State Fault Refusal :=
  runInstr (ioInstr (dataIn .a ac dev) (flagCommand f dev)) s

/-- DIB (46_io R508). -/
def execDib (ac : AcNo) (f : IoFlag) (dev : DevCode) (s : State) : Host.Outcome State Fault Refusal :=
  runInstr (ioInstr (dataIn .b ac dev) (flagCommand f dev)) s

/-- DIC (46_io R509). -/
def execDic (ac : AcNo) (f : IoFlag) (dev : DevCode) (s : State) : Host.Outcome State Fault Refusal :=
  runInstr (ioInstr (dataIn .c ac dev) (flagCommand f dev)) s

/-- DOA (46_io R510). -/
def execDoa (ac : AcNo) (f : IoFlag) (dev : DevCode) (s : State) : Host.Outcome State Fault Refusal :=
  runInstr (ioInstr (dataOut .a ac dev) (flagCommand f dev)) s

/-- DOB (46_io R511). -/
def execDob (ac : AcNo) (f : IoFlag) (dev : DevCode) (s : State) : Host.Outcome State Fault Refusal :=
  runInstr (ioInstr (dataOut .b ac dev) (flagCommand f dev)) s

/-- DOC (46_io R512). -/
def execDoc (ac : AcNo) (f : IoFlag) (dev : DevCode) (s : State) : Host.Outcome State Fault Refusal :=
  runInstr (ioInstr (dataOut .c ac dev) (flagCommand f dev)) s

/-- SKP (46_io R514). -/
def execSkp (t : SkipTest) (dev : DevCode) (s : State) : Host.Outcome State Fault Refusal :=
  runInstr (do
    ioProtect
    let s ← get
    skipIf 1 (skipTest t (deviceFlags s dev).1 (deviceFlags s dev).2)) s

/-- Bits 2-15 of a device's status: all ones for a device that defines nothing (46_io R515). -/
def statusBits (s : State) (d : DevCode) : BitVec 14 :=
  if isBoard d then BitVec.allOnes 14
  else
    match findExt s d with
    | some x => x.status
    | none => BitVec.allOnes 14

/-- The status word of a device: Done, Busy, then its own bits (46_io R515). -/
def statusWord (s : State) (d : DevCode) : Word :=
  BitVec.ofBool (deviceFlags s d).2 ++ BitVec.ofBool (deviceFlags s d).1 ++ statusBits s d

/-- DIS; bits 8-9 have no function (46_io R515). -/
def execDis (ac : AcNo) (_f : IoFlag) (dev : DevCode) (s : State) : Host.Outcome State Fault Refusal :=
  runInstr (do
    ioProtect
    let s ← get
    setAc ac (statusWord s dev)
    advance 1) s

end Sys2Proof.Machine
end

