-- ==== Sys2Proof/Machine/Board.lean ====
section
/-!
DEFINITION. The instructions of the devices on the processor board: TTI, TTO, RTC, PIT, ERCC, APL (46_io R545 to R558).
-/

namespace Sys2Proof.Machine

/-- DIA TTI: the character right justified, bits 0-7 zero (46_io R546). -/
def execDiaTti (ac : AcNo) (f : IoFlag) (s : State) : Host.Outcome State Fault Refusal :=
  runInstr (ioInstr (do
    let s ← get
    setAc ac (s.tti.rbuf.setWidth 16)) (flagCommand f devTti)) s

/-- DOA TTO: with Start the character goes out (46_io R548; log 43). -/
def execDoaTto (ac : AcNo) (f : IoFlag) (s : State) : Host.Outcome State Fault Refusal :=
  runInstr (ioInstr (do
    let v ← getAc ac
    modify fun s => { s with tto := { s.tto with tbuf := lowByte v } }
    if f = .start then emit (.ttoChar (lowByte v)) else pure ()) (flagCommand f devTto)) s

/-- DOA RTC (46_io R550). -/
def execDoaRtc (ac : AcNo) (f : IoFlag) (s : State) : Host.Outcome State Fault Refusal :=
  runInstr (ioInstr (do
    let v ← getAc ac
    modify fun s => { s with rtc := { s.rtc with fs := v.setWidth 2 } }) (flagCommand f devRtc)) s

/-- DIA PIT (46_io R552). -/
def execDiaPit (ac : AcNo) (f : IoFlag) (s : State) : Host.Outcome State Fault Refusal :=
  runInstr (ioInstr (do
    let s ← get
    setAc ac s.pit.cnt) (flagCommand f devPit)) s

/-- DOA PIT (46_io R553). -/
def execDoaPit (ac : AcNo) (f : IoFlag) (s : State) : Host.Outcome State Fault Refusal :=
  runInstr (ioInstr (do
    let v ← getAc ac
    modify fun s => { s with pit := { s.pit with icr := v } }) (flagCommand f devPit)) s

/-- DOA ERCC (46_io R555). -/
def execDoaErcc (ac : AcNo) (f : IoFlag) (s : State) : Host.Outcome State Fault Refusal :=
  runInstr (ioInstr (do
    let v ← getAc ac
    modify fun s => { s with ercc := { s.ercc with mode := v.setWidth 3 } }) (flagCommand f devErcc)) s

/-- The fault address of ERCC: meaningful while an error interrupt is outstanding, else any value (46_io R556,
93_implementation_defined U33). -/
def erccAddr : M (BitVec 20) := do
  let s ← get
  if s.ercc.done then pure s.ercc.faultAddr else drawFree 20

/-- The fault code of ERCC, as `erccAddr` (46_io R557, 93_implementation_defined U33). -/
def erccCode : M (BitVec 6) := do
  let s ← get
  if s.ercc.done then pure s.ercc.faultCode else drawFree 6

/-- DIA ERCC: the low 16 bits of the fault address (46_io R556). -/
def execDiaErcc (ac : AcNo) (f : IoFlag) (s : State) : Host.Outcome State Fault Refusal :=
  runInstr (ioInstr (do
    let a ← erccAddr
    setAc ac (a.setWidth 16)) (flagCommand f devErcc)) s

/-- DIB ERCC: the fault code, six zeros, the four high bits of the fault address (46_io R557). -/
def execDibErcc (ac : AcNo) (f : IoFlag) (s : State) : Host.Outcome State Fault Refusal :=
  runInstr (ioInstr (do
    let c ← erccCode
    let a ← erccAddr
    setAc ac (c ++ (0 : BitVec 6) ++ a.extractLsb' 16 4)) (flagCommand f devErcc)) s

/-- The APL register with reserved bits `r` (46_io R558). -/
def aplWord (c : Config.HostConfig) (r : BitVec 7) : Word :=
  BitVec.ofBool c.aplDch ++ BitVec.ofBool c.locked ++ BitVec.ofBool c.aplDly ++ r ++ c.aplCode

/-- DIA APL: reserved bits 3-9 are any value (46_io R558). -/
def execDiaApl (ac : AcNo) (f : IoFlag) (s : State) : Host.Outcome State Fault Refusal :=
  runInstr (ioInstr (do
    let s ← get
    let r ← drawFree 7
    setAc ac (aplWord s.cfg r)) (flagCommand f devApl)) s

/-- DOA APL: bit 15 is the run light (46_io R558). -/
def execDoaApl (ac : AcNo) (f : IoFlag) (s : State) : Host.Outcome State Fault Refusal :=
  runInstr (ioInstr (do
    let v ← getAc ac
    modify fun s => { s with runLight := v.getLsbD 0 }) (flagCommand f devApl)) s

end Sys2Proof.Machine
end

