-- ==== Sys2Proof/Machine/Cpu.lean ====
section
/-!
DEFINITION. The CPU device, code 77 octal, and VCT (46_io R520 to R543).
-/

namespace Sys2Proof.Machine

/-- f to the CPU, after the transfer (46_io R520). -/
def cpuFlag (f : IoFlag) : M Unit := modify (cpuCommand f)

/-- INTEN (46_io R522). -/
def execInten (_ac : AcNo) (s : State) : Host.Outcome State Fault Refusal :=
  runInstr (ioInstr (pure ()) (cpuFlag .start)) s

/-- INTDS (46_io R521). -/
def execIntds (_ac : AcNo) (s : State) : Host.Outcome State Fault Refusal :=
  runInstr (ioInstr (pure ()) (cpuFlag .clear)) s

/-- NIO CPU with no flag or P (46_io R531). -/
def execNioCpu (_ac : AcNo) (f : IoFlag) (s : State) : Host.Outcome State Fault Refusal :=
  runInstr (ioInstr (pure ()) (cpuFlag f)) s

/-- READS (46_io R523). -/
def execReads (ac : AcNo) (f : IoFlag) (s : State) : Host.Outcome State Fault Refusal :=
  runInstr (ioInstr (do
    let s ← get
    setAc ac s.vcr) (cpuFlag f)) s

/-- DOA CPU with f other than P: nothing is transferred (46_io R531). -/
def execDoaCpu (_ac : AcNo) (f : IoFlag) (s : State) : Host.Outcome State Fault Refusal :=
  runInstr (ioInstr (pure ()) (cpuFlag f)) s

/-- DOAP CPU: the accumulator is ignored while its bit 15 is zero; the manual forbids bit 15 set without saying what it does
(46_io R530, 93_implementation_defined U31; log 21). -/
def execDoapCpu (ac : AcNo) (s : State) : Host.Outcome State Fault Refusal :=
  runInstr (ioInstr (do
    let v ← getAc ac
    if v.getLsbD 0 then stop (.refusal .doapDiagnosticBit) else pure ()) (cpuFlag .pulse)) s

/-- The word INTA delivers: bits 0-9 one, then the device code (46_io R524). -/
def intaWord (c : DevCode) : Word := BitVec.allOnes 10 ++ c

/-- INTA (46_io R524). -/
def execInta (ac : AcNo) (f : IoFlag) (s : State) : Host.Outcome State Fault Refusal :=
  runInstr (ioInstr (do
    let s ← get
    setAc ac (intaWord (ackCode s))) (cpuFlag f)) s

/-- MSKO (46_io R525). -/
def execMsko (ac : AcNo) (f : IoFlag) (s : State) : Host.Outcome State Fault Refusal :=
  runInstr (ioInstr (do
    let v ← getAc ac
    modify fun s => { s with mask := v }) (cpuFlag f)) s

/-- IORST: the accumulator field is ignored (46_io R526). -/
def execIorst (_ac : AcNo) (f : IoFlag) (s : State) : Host.Outcome State Fault Refusal :=
  runInstr (ioInstr (modify ioReset) (cpuFlag f)) s

/-- Enter the virtual console: it runs with the run light off (70_reset R710, R711). An XCT chain starts again from its first
XCT, at the program counter. -/
def enterConsole (s : State) : State := { s with runState := .console, runLight := false, xct := none }

/-- What a Halt does after f and the program counter: with Halt Dispatch the virtual console is entered, which clears the
power-fail interrupt; without it the processor stops (46_io R527, R530). -/
def haltWith (s : State) : State :=
  let s := { s with con := { s.con with hlt := true } }
  if s.cfg.haltDispatch then { enterConsole s with pf := false } else { s with runState := .halted }

/-- HALTA (46_io R527). -/
def execHalta (_ac : AcNo) (f : IoFlag) (s : State) : Host.Outcome State Fault Refusal :=
  runInstr (do
    ioInstr (pure ()) (cpuFlag f)
    modify haltWith) s

/-- SKP CPU: Interrupt On and Power Fail in the places of Busy and Done (46_io R528). -/
def execSkpCpu (t : SkipTest) (s : State) : Host.Outcome State Fault Refusal :=
  runInstr (do
    ioProtect
    let s ← get
    skipIf 1 (skipTest t s.ion s.pf)) s

/-- CPUSTAT with undefined bits 9 and 14 given (46_io R529). -/
def cpuStat (s : State) (b9 b14 : BitVec 1) : Word :=
  BitVec.ofBool s.pf ++ BitVec.ofBool s.ion ++ (1 : BitVec 1) ++ BitVec.ofBool s.con.brk ++ BitVec.ofBool s.con.pup ++
    BitVec.ofBool s.con.hlt ++ BitVec.ofBool s.cfg.haltDispatch ++ BitVec.ofBool (irq s) ++ BitVec.ofBool s.con.pl ++
    b9 ++ BitVec.ofBool s.con.trp ++ BitVec.ofBool s.survived ++ s.cfg.boards.memType ++ b14 ++ BitVec.ofBool s.con.dg

/-- DIS CPU: bits 9 and 14 are any value at each read (46_io R529, 93_implementation_defined U30). -/
def execDisCpu (ac : AcNo) (_f : IoFlag) (s : State) : Host.Outcome State Fault Refusal :=
  runInstr (do
    ioProtect
    let s ← get
    let b9 ← drawFree 1
    let b14 ← drawFree 1
    setAc ac (cpuStat s b9 b14)
    advance 1) s

/-! ## VCT -/

/-- Modes D and E: the vector stack replaces the user's, whose control words are pushed on it; location 41 stands (46_io
R542, D45). -/
def vctNewStack : M Unit := do
  let o40 ← memRead spLoc
  let o41 ← memRead fpLoc
  let o42 ← memRead slLoc
  let o43 ← memRead sfaLoc
  let sp ← memRead 4
  memWrite spLoc sp
  let sl ← memRead 6
  memWrite slLoc sl
  let sfa ← memRead 7
  memWrite sfaLoc sfa
  push o40
  push o41
  push o42
  push o43

/-- Modes C and E: a return block with the interrupted program counter of location 0 (46_io R542). -/
def vctBlock : M Unit := do
  pushAc 0
  pushAc 1
  pushAc 2
  pushAc 3
  let ret ← memRead 0
  let s ← get
  push (joinWord s.cry (ret.setWidth 15))

/-- Modes B to E, part II: the current mask saved, the new one in force and in location 5, interrupts on with their hold, and
the handler (46_io R543). -/
def vctEnter (bits : Word) (handler : Addr) : M Unit := do
  let m ← memRead 5
  push m
  memWrite 5 (m ||| bits)
  modify fun s => { s with mask := m ||| bits }
  cpuFlag .start
  finishAt handler

/-- VCT (46_io R540 to R543). -/
def execVct (stackChange : Bool) (table : Addr) (s : State) : Host.Outcome State Fault Refusal :=
  runInstr (do
    ioProtect
    let s ← get
    cpuFlag .pulse
    let ent ← memRead (table + (ackCode s).setWidth 15)
    if ent.msb then
      let dct : Addr := ent.setWidth 15
      let w0 ← memRead dct
      let w1 ← memRead (dct + 1)
      if stackChange then vctNewStack else pure ()
      if w0.msb then vctBlock else pure ()
      vctEnter w1 (w0.setWidth 15)
    else setPc (ent.setWidth 15)) s

end Sys2Proof.Machine
end

