-- ==== Sys2Proof/Machine/DataMovement.lean ====
section
/-!
DEFINITION. Data movement: words, effective addresses, bytes, blocks, character strings and bits (42_data_movement). An
interruptible instruction does one iteration a step, its progress in the accumulators, the program counter unchanged until
its loop ends (42_data_movement R306; log 28).
-/

namespace Sys2Proof.Machine

/-! ## Words and addresses -/

/-- LDA (42_data_movement R280). -/
def execLda (ac : AcNo) (ea : ShortAddr) (s : State) : Host.Outcome State Fault Refusal :=
  runInstr (do
    let e ← shortEaData ea
    let v ← dataRead e
    setAc ac v
    advance 1) s

/-- STA (42_data_movement R281). -/
def execSta (ac : AcNo) (ea : ShortAddr) (s : State) : Host.Outcome State Fault Refusal :=
  runInstr (do
    let e ← shortEaData ea
    let v ← getAc ac
    dataWrite e v
    advance 1) s

/-- ELDA (42_data_movement R282). -/
def execElda (ac : AcNo) (ea : ExtAddr) (s : State) : Host.Outcome State Fault Refusal :=
  runInstr (do
    let e ← extEaData ea
    let v ← dataRead e
    setAc ac v
    advance 2) s

/-- ESTA (42_data_movement R283). -/
def execEsta (ac : AcNo) (ea : ExtAddr) (s : State) : Host.Outcome State Fault Refusal :=
  runInstr (do
    let e ← extEaData ea
    let v ← getAc ac
    dataWrite e v
    advance 2) s

/-- LEF (42_data_movement R290). -/
def execLef (ac : AcNo) (ea : ShortAddr) (s : State) : Host.Outcome State Fault Refusal :=
  runInstr (do
    let e ← shortEa ea
    setAc ac (joinWord false e)
    advance 1) s

/-- ELEF (42_data_movement R291). -/
def execElef (ac : AcNo) (ea : ExtAddr) (s : State) : Host.Outcome State Fault Refusal :=
  runInstr (do
    let e ← extEa ea
    setAc ac (joinWord false e)
    advance 2) s

/-! ## Bytes -/

/-- LDB (42_data_movement R284). -/
def execLdb (acs acd : AcNo) (s : State) : Host.Outcome State Fault Refusal :=
  runInstr (do
    let bp ← getAc acs
    let b ← byteRead bp
    setAc acd (b.setWidth 16)
    advance 1) s

/-- STB (42_data_movement R285). -/
def execStb (acs acd : AcNo) (s : State) : Host.Outcome State Fault Refusal :=
  runInstr (do
    let bp ← getAc acs
    let v ← getAc acd
    byteWrite bp (lowByte v)
    advance 1) s

/-- ELDB (42_data_movement R292). -/
def execEldb (ac : AcNo) (idx : Index) (disp : Word) (s : State) : Host.Outcome State Fault Refusal :=
  runInstr (do
    let s ← get
    let b ← byteReadAt (extByteAddr s idx disp) (bpRight disp)
    setAc ac (b.setWidth 16)
    advance 2) s

/-- ESTB (42_data_movement R293). -/
def execEstb (ac : AcNo) (idx : Index) (disp : Word) (s : State) : Host.Outcome State Fault Refusal :=
  runInstr (do
    let s ← get
    byteWriteAt (extByteAddr s idx disp) (bpRight disp) (lowByte (s.ac.get ac))
    advance 2) s

/-! ## Block moves -/

/-- The next address of a block: bit 0 forced to zero (42_data_movement R301). -/
def nextAddr (a : Word) : Word := joinWord false (a.setWidth 15 + 1)

/-- One word of a block move, the word moved changed by `f`: a count outside 1 to 77777 octal moves nothing and ends the
instruction (42_data_movement R300, R301). `again` is what a step does after a word that is not the last. -/
def blockStep (f : State → Word → Word) (again : M Unit) : M Unit := do
  let n ← getAc 1
  if n = 0 || n.msb then advance 1
  else
    resolveAc 2
    resolveAc 3
    let src ← getAc 2
    let w ← memRead (src.setWidth 15)
    let dst ← getAc 3
    let s ← get
    memWrite (dst.setWidth 15) (f s w)
    setAc 1 (n - 1)
    setAc 2 (nextAddr src)
    setAc 3 (nextAddr dst)
    if n = 1 then advance 1 else again

/-- BLM (42_data_movement R300). -/
def execBlm (s : State) : Host.Outcome State Fault Refusal := runInstr (blockStep (fun _ w => w) (pure ())) s

/-- BAM (42_data_movement R301). -/
def execBam (s : State) : Host.Outcome State Fault Refusal := runInstr (blockStep (fun s w => w + s.ac.get 0) (pure ())) s

/-- XCT keeps the word it took, an instruction with items left: the next step goes on with it at the XCT's address
(45_program_flow R480; log 20). -/
def keepWord (w : Word) : M Unit := modify fun s => { s with xct := some w }

/-- BLM of a word `w` that XCT took (45_program_flow R480). -/
def execBlmUnder (w : Word) (s : State) : Host.Outcome State Fault Refusal :=
  runInstr (blockStep (fun _ x => x) (keepWord w)) s

/-! ## Character strings -/

/-- Take the next byte of the string whose length is in `len` and pointer in `ptr`, or a space when it is exhausted; both
move one byte on (42_data_movement R302). -/
def takeByte (len ptr : AcNo) : M (BitVec 8) := do
  let l ← getAc len
  if l = 0 then pure padByte
  else
    let p ← getAc ptr
    let b ← byteRead p
    setAc ptr (stepBy l p)
    setAc len (decLen l)
    pure b

/-- Move the pointer and length of a string one byte on, unless it is exhausted (42_data_movement R303). -/
def passByte (len ptr : AcNo) : M Unit := do
  let l ← getAc len
  if l = 0 then pure ()
  else
    let p ← getAc ptr
    setAc ptr (stepBy l p)
    setAc len (decLen l)

/-- The byte a string offers to a comparison, a space when it is exhausted (42_data_movement R303). -/
def peekByte (len ptr : AcNo) : M (BitVec 8) := do
  let l ← getAc len
  if l = 0 then pure padByte
  else
    let p ← getAc ptr
    byteRead p

/-- CMV ends when the destination is full: carry says that bytes remain unfetched (42_data_movement R302). -/
def cmvEnd : M Unit := do
  let d ← getAc 0
  if d = 0 then
    let l ← getAc 1
    setCry (decide (l ≠ 0))
    advance 1
  else pure ()

/-- CMV: one byte (42_data_movement R302). -/
def execCmv (s : State) : Host.Outcome State Fault Refusal :=
  runInstr (do
    let d ← getAc 0
    if d = 0 then cmvEnd
    else
      let b ← takeByte 1 3
      let p ← getAc 2
      byteWrite p b
      setAc 2 (stepBy d p)
      setAc 0 (decLen d)
      cmvEnd) s

/-- The code of a comparison: -1 for less, +1 for greater (42_data_movement R303). -/
def compareCode (b1 b2 : BitVec 8) : Word := if b1.toNat < b2.toNat then 0o177777 else 1

/-- CMP: one byte pair (42_data_movement R303). -/
def execCmp (s : State) : Host.Outcome State Fault Refusal :=
  runInstr (do
    let l2 ← getAc 0
    let l1 ← getAc 1
    if l2 = 0 && l1 = 0 then
      setAc 1 0
      advance 1
    else
      let b1 ← peekByte 1 3
      let b2 ← peekByte 0 2
      if b1 = b2 then
        passByte 1 3
        passByte 0 2
        let m2 ← getAc 0
        let m1 ← getAc 1
        if m2 = 0 && m1 = 0 then advance 1 else pure ()
      else
        setAc 1 (compareCode b1 b2)
        advance 1) s

/-- The delimiter bit of a byte in the 256-bit table at a word address (42_data_movement R304). -/
def delimiter (table : Addr) (b : BitVec 8) : M Bool := do
  let t ← memRead (table + (b.extractLsb' 4 4).setWidth 15)
  pure (bitOf t (b.setWidth 4))

/-- The end of CMT: carry is any value, the accumulators stand (42_data_movement R304, 93_implementation_defined U52). -/
def cmtEnd : M Unit := do
  let c ← drawBit
  setCry c
  advance 1

/-- CMT: one byte (42_data_movement R304). -/
def execCmt (s : State) : Host.Outcome State Fault Refusal :=
  runInstr (do
    resolveAc 0
    let l ← getAc 1
    if l = 0 then cmtEnd
    else
      let t ← getAc 0
      let src ← getAc 3
      let b ← byteRead src
      let hit ← delimiter (t.setWidth 15) b
      if hit then cmtEnd
      else
        let dst ← getAc 2
        byteWrite dst b
        setAc 2 (stepBy l dst)
        setAc 3 (stepBy l src)
        setAc 1 (decLen l)
        if decLen l = 0 then cmtEnd else pure ()) s

/-- `Tr(b)`: the translation of a byte by the table at byte pointer `tbp` (42_data_movement R305). -/
def translate (tbp : Word) (b : BitVec 8) : M (BitVec 8) := byteRead (tbp + b.setWidth 16)

/-- Advance AC2 and AC3 by one byte and set the count; the instruction ends when the count is zero (42_data_movement
R305). -/
def ctrNext (p2 p3 n : Word) : M Unit := do
  setAc 2 (p2 + 1)
  setAc 3 (p3 + 1)
  setAc 1 n
  if n = 0 then advance 1 else pure ()

/-- CTR: one byte, moved where bit 0 of AC1 is one, else compared (42_data_movement R305). The word that points to the table
is read anew for each byte, as after an interrupt, whether or not one came: the manual's loop may be interrupted after any
byte, and the difference shows only where the destination string overwrites that word (log 28). -/
def execCtr (s : State) : Host.Outcome State Fault Refusal :=
  runInstr (do
    resolveAc 0
    let a ← getAc 0
    let tbp ← memRead (a.setWidth 15)
    let n ← getAc 1
    let p2 ← getAc 2
    let p3 ← getAc 3
    if n.msb then
      let b ← byteRead p3
      let t ← translate tbp b
      byteWrite p2 t
      ctrNext p2 p3 (n + 1)
    else if n = 0 then advance 1
    else
      let b1 ← byteRead p3
      let t1 ← translate tbp b1
      let b2 ← byteRead p2
      let t2 ← translate tbp b2
      if t1 = t2 then ctrNext p2 p3 (n - 1)
      else
        setAc 1 (compareCode t1 t2)
        advance 1) s

/-! ## Bits -/

/-- Read, change and, by `wr`, write the addressed bit: the word before the change is given back (20_memory R127). -/
def updateBit (wr : Addr → Word → M Unit) (acs acd : AcNo) (v : Bool) : M Bool := do
  let d ← getAc acd
  let a ← bitWord acs acd
  let w ← memRead a
  wr a (if v then w ||| bitMask (bitNumber d) else w &&& ~~~bitMask (bitNumber d))
  pure (bitOf w (bitNumber d))

/-- Read the addressed bit (20_memory R127). -/
def readBit (acs acd : AcNo) : M Bool := do
  let d ← getAc acd
  let a ← bitWord acs acd
  let w ← memRead a
  pure (bitOf w (bitNumber d))

/-- BTO (42_data_movement R310). -/
def execBto (acs acd : AcNo) (s : State) : Host.Outcome State Fault Refusal :=
  runInstr (do
    let _ ← updateBit memWrite acs acd true
    advance 1) s

/-- BTZ (42_data_movement R311). -/
def execBtz (acs acd : AcNo) (s : State) : Host.Outcome State Fault Refusal :=
  runInstr (do
    let _ ← updateBit memWrite acs acd false
    advance 1) s

/-- SNB (42_data_movement R312). -/
def execSnb (acs acd : AcNo) (s : State) : Host.Outcome State Fault Refusal :=
  runInstr (do
    let b ← readBit acs acd
    skipIf 1 b) s

/-- SZB (42_data_movement R313). -/
def execSzb (acs acd : AcNo) (s : State) : Host.Outcome State Fault Refusal :=
  runInstr (do
    let b ← readBit acs acd
    skipIf 1 (!b)) s

/-- SZBO: read, test and write with the memory bus held (42_data_movement R314, 20_memory R141). -/
def execSzbo (acs acd : AcNo) (s : State) : Host.Outcome State Fault Refusal :=
  runInstr (do
    let b ← updateBit memWriteHeld acs acd true
    skipIf 1 (!b)) s

end Sys2Proof.Machine
end

