-- ==== Sys2Proof/Machine/FixedPoint.lean ====
section
/-!
DEFINITION. Fixed-point arithmetic, logical, shift, decimal and bit-count instructions (41_fixed_point_arith_logic).
-/

namespace Sys2Proof.Machine

/-! ## Shared computations -/

/-- An accumulator becomes a function of itself, after which operation goes on `len` words further. -/
def updateAc (ac : AcNo) (len : Nat) (g : Word → Word) : M Unit := do
  let v ← getAc ac
  setAc ac (g v)
  advance len

/-- ACD becomes a function of ACS and ACD. -/
def updateAcd (acs acd : AcNo) (g : Word → Word → Word) : M Unit := do
  let x ← getAc acs
  let y ← getAc acd
  setAc acd (g x y)
  advance 1

/-- The number of hex digits or the amount an N field stands for: N + 1 (30_encoding R165). -/
def countOf (n : BitVec 2) : Nat := n.toNat + 1

/-- A logical shift of a word or double word by the 8-bit two's complement count in bits 8-15 of `x`: positive left, negative
right, zero when the magnitude reaches the width (41_fixed_point R241, R247). -/
def shiftBy {w : Nat} (x : Word) (v : BitVec w) : BitVec w :=
  let k : BitVec 8 := lowByte x
  if k.msb then v >>> (-k).toNat else v <<< k.toNat

/-- HLV: the signed half, rounded toward zero (41_fixed_point R242). -/
def halve (x : Word) : Word := if x.msb then -((-x) >>> 1) else x >>> 1

/-- The number of one bits (41_fixed_point R259). -/
def popcount (x : Word) : Nat := ((List.range 16).filter fun k => x.getLsbD k).length

/-- The number of consecutive zero bits from bit 0 on, over `k` bits. -/
def leadZerosFrom (x : Word) : Nat → Nat
  | 0 => 0
  | k + 1 => if x.getLsbD k then 0 else leadZerosFrom x k + 1

/-- The number of high-order zeroes, 16 for zero (41_fixed_point R260). -/
def leadZeros (x : Word) : Nat := leadZerosFrom x 16

/-- A word with its leading one bit cleared (41_fixed_point R261). -/
def clearLead (x : Word) : Word := x &&& ~~~((0x8000 : Word) >>> leadZeros x)

/-- The decimal digit in bits 12-15. -/
def digitOf (x : Word) : Nat := (x.extractLsb' 0 4).toNat

/-- A word with bits 12-15 replaced. -/
def withDigit (x : Word) (d : BitVec 4) : Word := x.extractLsb' 4 12 ++ d

/-- Bits 12-15 of ACD and carry become `d` and `c`. -/
def setDigit (acd : AcNo) (d : BitVec 4) (c : Bool) : M Unit := do
  let y ← getAc acd
  setAc acd (withDigit y d)
  setCry c

/-- The decimal result of DAD for valid digits: digit and carry (41_fixed_point R234). -/
def decimalAdd (x y : Nat) (c : Bool) : BitVec 4 × Bool :=
  let t := x + y + c.toNat
  (BitVec.ofNat 4 (t % 10), decide (10 ≤ t))

/-- The decimal result of DSB for valid digits: `y - x`, less the complement of carry (41_fixed_point R235). -/
def decimalSub (x y : Nat) (c : Bool) : BitVec 4 × Bool :=
  let b := x + (!c).toNat
  if y < b then (BitVec.ofNat 4 (y + 10 - b), false) else (BitVec.ofNat 4 (y - b), true)

/-- A decimal instruction: a digit above 9 leaves the digit and carry unpredictable (41_fixed_point R234, R235). -/
def decimal (op : Nat → Nat → Bool → BitVec 4 × Bool) (acs acd : AcNo) : M Unit := do
  let s ← get
  let x := digitOf (s.ac.get acs)
  let y := digitOf (s.ac.get acd)
  if 9 < x || 9 < y then
    let d ← drawFree 4
    let c ← drawBit
    setDigit acd d c
  else
    let r := op x y s.cry
    setDigit acd r.1 r.2
  advance 1

/-- The end of a signed division of a 32-bit dividend by AC2: truncated toward zero, or overflow with AC0 and AC1
unpredictable (41_fixed_point R239). -/
def signedDivide (n : DWord) : M Unit := do
  let d ← getAc 2
  let q := Int.tdiv n.toInt d.toInt
  if d = 0 || q < -32768 || 32767 < q then
    let x ← drawFree 16
    let y ← drawFree 16
    setAc 0 x
    setAc 1 y
    setCry true
  else
    setAc 0 (BitVec.ofInt 16 (Int.tmod n.toInt d.toInt))
    setAc 1 (BitVec.ofInt 16 q)
    setCry false
  advance 1

/-! ## Meanings -/

/-- ADDI (41_fixed_point R230). -/
def execAddi (ac : AcNo) (i : Word) (s : State) : Host.Outcome State Fault Refusal :=
  runInstr (updateAc ac 2 (· + i)) s

/-- ADI (41_fixed_point R231). -/
def execAdi (n : BitVec 2) (ac : AcNo) (s : State) : Host.Outcome State Fault Refusal :=
  runInstr (updateAc ac 1 (· + BitVec.ofNat 16 (countOf n))) s

/-- SBI (41_fixed_point R250). -/
def execSbi (n : BitVec 2) (ac : AcNo) (s : State) : Host.Outcome State Fault Refusal :=
  runInstr (updateAc ac 1 (· - BitVec.ofNat 16 (countOf n))) s

/-- ANC (41_fixed_point R232). -/
def execAnc (acs acd : AcNo) (s : State) : Host.Outcome State Fault Refusal :=
  runInstr (updateAcd acs acd fun x y => ~~~x &&& y) s

/-- ANDI (41_fixed_point R233). -/
def execAndi (ac : AcNo) (i : Word) (s : State) : Host.Outcome State Fault Refusal :=
  runInstr (updateAc ac 2 (· &&& i)) s

/-- IOR (41_fixed_point R245). -/
def execIor (acs acd : AcNo) (s : State) : Host.Outcome State Fault Refusal :=
  runInstr (updateAcd acs acd fun x y => x ||| y) s

/-- IORI (41_fixed_point R246). -/
def execIori (ac : AcNo) (i : Word) (s : State) : Host.Outcome State Fault Refusal :=
  runInstr (updateAc ac 2 (· ||| i)) s

/-- XOR (41_fixed_point R252). -/
def execXor (acs acd : AcNo) (s : State) : Host.Outcome State Fault Refusal :=
  runInstr (updateAcd acs acd fun x y => x ^^^ y) s

/-- XORI (41_fixed_point R253). -/
def execXori (ac : AcNo) (i : Word) (s : State) : Host.Outcome State Fault Refusal :=
  runInstr (updateAc ac 2 (· ^^^ i)) s

/-- XCH (41_fixed_point R251). -/
def execXch (acs acd : AcNo) (s : State) : Host.Outcome State Fault Refusal :=
  runInstr (do
    let x ← getAc acs
    let y ← getAc acd
    setAc acs y
    setAc acd x
    advance 1) s

/-- HXL (41_fixed_point R243). -/
def execHxl (n : BitVec 2) (ac : AcNo) (s : State) : Host.Outcome State Fault Refusal :=
  runInstr (updateAc ac 1 (· <<< (4 * countOf n))) s

/-- HXR (41_fixed_point R244). -/
def execHxr (n : BitVec 2) (ac : AcNo) (s : State) : Host.Outcome State Fault Refusal :=
  runInstr (updateAc ac 1 (· >>> (4 * countOf n))) s

/-- DHXL (41_fixed_point R236). -/
def execDhxl (n : BitVec 2) (ac : AcNo) (s : State) : Host.Outcome State Fault Refusal :=
  runInstr (do
    let v ← getPair ac
    setPair ac (v <<< (4 * countOf n))
    advance 1) s

/-- DHXR (41_fixed_point R237). -/
def execDhxr (n : BitVec 2) (ac : AcNo) (s : State) : Host.Outcome State Fault Refusal :=
  runInstr (do
    let v ← getPair ac
    setPair ac (v >>> (4 * countOf n))
    advance 1) s

/-- LSH (41_fixed_point R247). -/
def execLsh (acs acd : AcNo) (s : State) : Host.Outcome State Fault Refusal :=
  runInstr (updateAcd acs acd fun x y => shiftBy x y) s

/-- DLSH (41_fixed_point R241). -/
def execDlsh (acs acd : AcNo) (s : State) : Host.Outcome State Fault Refusal :=
  runInstr (do
    let x ← getAc acs
    let v ← getPair acd
    setPair acd (shiftBy x v)
    advance 1) s

/-- HLV (41_fixed_point R242). -/
def execHlv (ac : AcNo) (s : State) : Host.Outcome State Fault Refusal := runInstr (updateAc ac 1 halve) s

/-- MUL (41_fixed_point R248). -/
def execMul (s : State) : Host.Outcome State Fault Refusal :=
  runInstr (do
    let a0 ← getAc 0
    let a1 ← getAc 1
    let a2 ← getAc 2
    setPair 0 (BitVec.ofNat 32 (a1.toNat * a2.toNat + a0.toNat))
    advance 1) s

/-- MULS (41_fixed_point R249). -/
def execMuls (s : State) : Host.Outcome State Fault Refusal :=
  runInstr (do
    let a0 ← getAc 0
    let a1 ← getAc 1
    let a2 ← getAc 2
    setPair 0 (BitVec.ofInt 32 (a1.toInt * a2.toInt + a0.toInt))
    advance 1) s

/-- DIV: overflow leaves the operands and sets carry (41_fixed_point R238). -/
def execDiv (s : State) : Host.Outcome State Fault Refusal :=
  runInstr (do
    let a0 ← getAc 0
    let d ← getAc 2
    let n ← getPair 0
    if d.toNat ≤ a0.toNat then setCry true
    else
      setAc 0 (BitVec.ofNat 16 (n.toNat % d.toNat))
      setAc 1 (BitVec.ofNat 16 (n.toNat / d.toNat))
      setCry false
    advance 1) s

/-- DIVS (41_fixed_point R239). -/
def execDivs (s : State) : Host.Outcome State Fault Refusal :=
  runInstr (do
    let n ← getPair 0
    signedDivide n) s

/-- DIVX: the sign of AC1 extended into AC0, then DIVS (41_fixed_point R240). -/
def execDivx (s : State) : Host.Outcome State Fault Refusal :=
  runInstr (do
    let a1 ← getAc 1
    setAc 0 (if a1.msb then 0o177777 else 0)
    let n ← getPair 0
    signedDivide n) s

/-- DAD (41_fixed_point R234). -/
def execDad (acs acd : AcNo) (s : State) : Host.Outcome State Fault Refusal := runInstr (decimal decimalAdd acs acd) s

/-- DSB (41_fixed_point R235). -/
def execDsb (acs acd : AcNo) (s : State) : Host.Outcome State Fault Refusal := runInstr (decimal decimalSub acs acd) s

/-- COB (41_fixed_point R259). -/
def execCob (acs acd : AcNo) (s : State) : Host.Outcome State Fault Refusal :=
  runInstr (updateAcd acs acd fun x y => y + BitVec.ofNat 16 (popcount x)) s

/-- LOB (41_fixed_point R260). -/
def execLob (acs acd : AcNo) (s : State) : Host.Outcome State Fault Refusal :=
  runInstr (updateAcd acs acd fun x y => y + BitVec.ofNat 16 (leadZeros x)) s

/-- LRB (41_fixed_point R261). -/
def execLrb (acs acd : AcNo) (s : State) : Host.Outcome State Fault Refusal :=
  runInstr (do
    let x ← getAc acs
    let y ← getAc acd
    if acs = acd then pure () else setAc acd (y + BitVec.ofNat 16 (leadZeros x))
    setAc acs (clearLead x)
    advance 1) s

end Sys2Proof.Machine
end

