-- ==== Sys2Proof/Machine/FloatArith.lean ====
section
/-!
DEFINITION. Floating-point numbers and their arithmetic (43_floating_point R331 to R336): the fields of a number, the
normalisation and packing of an intermediate result, addition, multiplication and division, in exact integer arithmetic.
-/

namespace Sys2Proof.Machine

/-- The two precisions (43_floating_point R331, R332). -/
inductive Prec where
  | single
  | double
  deriving DecidableEq, Repr

/-- P, the number of mantissa hex digits. -/
def Prec.digits : Prec → Nat
  | .single => 6
  | .double => 14

/-- A number's sign, excess-64 exponent and mantissa as a natural number of P digits. -/
structure Unp where
  sign : Bool
  expo : Nat
  mant : Nat
  deriving DecidableEq, Repr

/-- `Unp_P(x)` (43_floating_point R333). Single precision looks at bits 0-31 only. -/
def unpack (p : Prec) (x : QWord) : Unp where
  sign := x.msb
  expo := (x.extractLsb' 56 7).toNat
  mant :=
    match p with
    | .single => (x.extractLsb' 32 24).toNat
    | .double => (x.extractLsb' 0 56).toNat

/-- `Pack_P(s, e, m)`: lower bits are zero (43_floating_point R336). -/
def pack (p : Prec) (s : Bool) (e : Nat) (m : Nat) : QWord :=
  match p with
  | .single => BitVec.ofBool s ++ BitVec.ofNat 7 e ++ BitVec.ofNat 24 m ++ (0 : BitVec 32)
  | .double => BitVec.ofBool s ++ BitVec.ofNat 7 e ++ BitVec.ofNat 56 m

/-- True zero in the bits a precision reads. -/
def isTrueZero (p : Prec) (x : QWord) : Bool :=
  match p with
  | .single => decide (x.extractLsb' 32 32 = 0)
  | .double => decide (x = 0)

/-- `Norm_P(x)`: true zero, or the most significant mantissa digit nonzero (43_floating_point R333). -/
def isNorm (p : Prec) (x : QWord) : Bool := isTrueZero p x || decide (16 ^ (p.digits - 1) ≤ (unpack p x).mant)

/-- A result and the exponent errors it raises. -/
structure FpResult where
  value : QWord
  ovf : Bool
  unf : Bool
  deriving DecidableEq, Repr

/-- The normalising shifts of a nonzero intermediate mantissa of P + 1 digits (43_floating_point R336): at most `fuel`. -/
def normalise (lim : Nat) : Nat → Nat → Int → Nat × Int
  | 0, m, e => (m, e)
  | fuel + 1, m, e => if m < lim then normalise lim fuel (16 * m) (e - 1) else (m, e)

/-- `Finish_P(s, e, M)` (43_floating_point R336): true zero, or normalised, the guard digit dropped, the exponent corrected
by 128 with OVF or UNF. -/
def finishFp (p : Prec) (s : Bool) (e : Int) (m : Nat) : FpResult :=
  if m = 0 then ⟨0, false, false⟩
  else
    let r := normalise (16 ^ p.digits) (p.digits + 1) m e
    let mant := r.1 / 16
    if 127 < r.2 then ⟨pack p s (r.2 - 128).toNat mant, true, false⟩
    else if r.2 < 0 then ⟨pack p s (r.2 + 128).toNat mant, false, true⟩
    else ⟨pack p s r.2.toNat mant, false, false⟩

/-- `FAdd_P(a, b)` (43_floating_point R336). -/
def fpAdd (p : Prec) (x y : QWord) : FpResult :=
  let a := unpack p x
  let b := unpack p y
  let e := max a.expo b.expo
  let ma := 16 * a.mant / 16 ^ (e - a.expo)
  let mb := 16 * b.mant / 16 ^ (e - b.expo)
  if a.sign = b.sign then
    if 16 ^ (p.digits + 1) ≤ ma + mb then finishFp p a.sign (e + 1) ((ma + mb) / 16)
    else finishFp p a.sign e (ma + mb)
  else if mb ≤ ma then finishFp p a.sign e (ma - mb)
  else finishFp p b.sign e (mb - ma)

/-- A number with its sign bit inverted (43_floating_point R364). -/
def negSign (x : QWord) : QWord := x ^^^ 0x8000000000000000

/-- Subtraction: the source's sign inverted, then addition (43_floating_point R364). -/
def fpSub (p : Prec) (x y : QWord) : FpResult := fpAdd p x (negSign y)

/-- `FMul_P(a, b)` (43_floating_point R336). -/
def fpMul (p : Prec) (x y : QWord) : FpResult :=
  let a := unpack p x
  let b := unpack p y
  finishFp p (a.sign ^^ b.sign) (Int.ofNat a.expo + Int.ofNat b.expo - 64) (a.mant * b.mant / 16 ^ (p.digits - 1))

/-- `FDiv_P(a, b)`, for a divisor with a nonzero mantissa (43_floating_point R336). -/
def fpDiv (p : Prec) (x y : QWord) : FpResult :=
  let a := unpack p x
  let b := unpack p y
  let e : Int := Int.ofNat a.expo - Int.ofNat b.expo + 64
  if b.mant ≤ a.mant then finishFp p (a.sign ^^ b.sign) (e + 1) (a.mant * 16 ^ p.digits / b.mant)
  else finishFp p (a.sign ^^ b.sign) e (a.mant * 16 ^ (p.digits + 1) / b.mant)

/-- The number of hex digits of a natural number below 16^`fuel`. -/
def hexDigits : Nat → Nat → Nat
  | 0, _ => 0
  | fuel + 1, n => if n = 0 then 0 else hexDigits fuel (n / 16) + 1

/-- The exact, normalised floating-point number of an integer below 16^P in magnitude (43_floating_point R354, R355). -/
def floatInt (p : Prec) (v : Int) : QWord :=
  if v = 0 then 0
  else
    let n := v.natAbs
    let k := hexDigits p.digits n
    pack p (decide (v < 0)) (64 + k) (n * 16 ^ (p.digits - k))

/-- The integer portion of a double-precision number's magnitude, truncated (43_floating_point R356). -/
def intPart (x : QWord) : Nat :=
  let u := unpack .double x
  if 64 + 14 ≤ u.expo then u.mant * 16 ^ (u.expo - (64 + 14)) else u.mant / 16 ^ (64 + 14 - u.expo)

/-- The exact order of two double-precision numbers' values, as integers of one scale (43_floating_point R388). -/
def scaledValue (x : QWord) : Int :=
  let u := unpack .double x
  let m : Int := Int.ofNat (u.mant * 16 ^ u.expo)
  if u.sign then -m else m

/-- FINT: the fraction zeroed, the result normalised (43_floating_point R386). -/
def integerize (x : QWord) : QWord :=
  let u := unpack .double x
  if u.mant = 0 || decide (u.expo ≤ 64) then 0
  else
    let y := u.expo - 64
    let m := if y < 14 then u.mant - u.mant % 16 ^ (14 - y) else u.mant
    (finishFp .double u.sign (Int.ofNat u.expo) (16 * m)).value

/-- FSCAL's result, and whether it shifted left (43_floating_point R384). `t` is the exponent to scale to. -/
def scale (x : QWord) (t : Nat) : QWord × Bool :=
  let u := unpack .double x
  if x = 0 || decide (t = u.expo) then (x, false)
  else
    let m := if u.expo < t then u.mant / 16 ^ (t - u.expo) else u.mant * 16 ^ (u.expo - t) % 16 ^ 14
    (if m = 0 then 0 else pack .double u.sign t m, decide (t < u.expo))

/-- A number with its exponent field replaced (43_floating_point R385). -/
def withExpo (x : QWord) (t : BitVec 7) : QWord := x.extractLsb' 63 1 ++ t ++ x.extractLsb' 0 56

end Sys2Proof.Machine
end

