-- ==== Sys2Proof/Machine/Stack.lean ====
section
/-!
DEFINITION. The stack instructions (44_stack R440 to R451).
-/

namespace Sys2Proof.Machine

/-- Push `n` accumulators from `i` up; AC3 + 1 is AC0 (44_stack R440). -/
def pushAcs : Nat → AcNo → M Unit
  | 0, _ => pure ()
  | n + 1, i => do
    pushAc i
    pushAcs n (i + 1)

/-- Pop `n` accumulators from `i` down; AC0 - 1 is AC3 (44_stack R441). -/
def popAcsDown : Nat → AcNo → M Unit
  | 0, _ => pure ()
  | n + 1, i => do
    let v ← pop
    setAc i v
    popAcsDown n (i - 1)

/-- The next sequential address of an instruction of `n` words (45_program_flow R461). -/
def nextPc (n : Nat) : M Addr := do
  let s ← get
  pure (s.pc + BitVec.ofNat 15 n)

/-- PSH (44_stack R440). -/
def execPsh (acs acd : AcNo) (s : State) : Host.Outcome State Fault Refusal :=
  runInstr (do
    pushAcs ((acd - acs).toNat + 1) acs
    let next ← nextPc 1
    finishAt next) s

/-- POP (44_stack R441). -/
def execPop (acs acd : AcNo) (s : State) : Host.Outcome State Fault Refusal :=
  runInstr (do
    popAcsDown ((acs - acd).toNat + 1) acs
    advance 1) s

/-- PSHJ: the effective address is computed before the push (44_stack R442). -/
def execPshj (ea : ExtAddr) (s : State) : Host.Outcome State Fault Refusal :=
  runInstr (do
    let e ← extEa ea
    let next ← nextPc 2
    push (joinWord false next)
    finishAt e) s

/-- POPB: the return from a trap; it completes a pending user enable (44_stack R443, 47_map R601). -/
def execPopb (s : State) : Host.Outcome State Fault Refusal :=
  runInstr (do
    let next ← popBlock
    completeEnable
    setPc next) s

/-- POPJ; it completes a pending user enable (44_stack R444, 47_map R601). -/
def execPopj (s : State) : Host.Outcome State Fault Refusal :=
  runInstr (do
    let w ← pop
    completeEnable
    setPc (w.setWidth 15)) s

/-- PSHR: the pushed address is this instruction's plus 2 (44_stack R445). -/
def execPshr (s : State) : Host.Outcome State Fault Refusal :=
  runInstr (do
    let ret ← nextPc 2
    push (joinWord false ret)
    let next ← nextPc 1
    finishAt next) s

/-- RSTR: nine words, the last into the stack pointer; it completes a pending user enable (44_stack R446, 47_map R601). -/
def execRstr (s : State) : Host.Outcome State Fault Refusal :=
  runInstr (do
    let spw ← memRead spLoc
    let sp : Addr := spw.setWidth 15
    let w ← memRead sp
    setCry w.msb
    let a3 ← memRead (sp - 1)
    setAc 3 a3
    let a2 ← memRead (sp - 2)
    setAc 2 a2
    let a1 ← memRead (sp - 3)
    setAc 1 a1
    let a0 ← memRead (sp - 4)
    setAc 0 a0
    let sfa ← memRead (sp - 5)
    memWrite sfaLoc sfa
    let sl ← memRead (sp - 6)
    memWrite slLoc sl
    let fp ← memRead (sp - 7)
    memWrite fpLoc fp
    let newSp ← memRead (sp - 8)
    memWrite spLoc newSp
    completeEnable
    setPc (w.setWidth 15)) s

/-- RTN: the frame pointer becomes the stack pointer, a SAVE block is popped, AC3 becomes the frame pointer; it completes a
pending user enable (44_stack R447, 47_map R601). -/
def execRtn (s : State) : Host.Outcome State Fault Refusal :=
  runInstr (do
    let fp ← memRead fpLoc
    memWrite spLoc fp
    let next ← popBlock
    let a3 ← getAc 3
    memWrite fpLoc a3
    completeEnable
    setPc next) s

/-- SAVE: on overflow the stack pointer is restored and the fault's return address is the SAVE's own (44_stack R448). -/
def execSave (i : Word) (s : State) : Host.Outcome State Fault Refusal :=
  runInstr (do
    let sp0 ← memRead spLoc
    pushAc 0
    pushAc 1
    pushAc 2
    let fp ← memRead fpLoc
    push (fp &&& 0o077777)
    let s ← get
    push (joinWord s.cry ((s.ac.get 3).setWidth 15))
    let sp ← memRead spLoc
    let sl ← memRead slLoc
    if sl.toNat < sp.toNat then
      memWrite spLoc sp0
      stackFault s.pc
    else
      memWrite fpLoc sp
      setAc 3 sp
      memWrite spLoc (sp + i)
      advance 2) s

/-- MSP: on overflow the stack pointer keeps its value and the fault's return address is the MSP's own (44_stack R449). -/
def execMsp (ac : AcNo) (s : State) : Host.Outcome State Fault Refusal :=
  runInstr (do
    let sp0 ← memRead spLoc
    let d ← getAc ac
    let sl ← memRead slLoc
    if sl.toNat < (sp0 + d).toNat then
      let s ← get
      stackFault s.pc
    else
      memWrite spLoc (sp0 + d)
      advance 1) s

/-! ## The floating-point block -/

/-- Word `k` of a double-precision number, word 0 the most significant (20_memory R107). -/
def quarter (x : QWord) (k : Nat) : Word := x.extractLsb' (48 - 16 * k) 16

/-- The four words of a number, most significant first. -/
def quarters (x : QWord) : List Word := [quarter x 0, quarter x 1, quarter x 2, quarter x 3]

/-- Write words above address `a` upwards. -/
def writeUp : Addr → List Word → M Unit
  | _, [] => pure ()
  | a, w :: ws => do
    memWrite (a + 1) w
    writeUp (a + 1) ws

/-- Read `n` words from address `a` downwards. -/
def readDown : Nat → Addr → M (List Word)
  | 0, _ => pure []
  | n + 1, a => do
    let w ← memRead a
    let ws ← readDown n (a - 1)
    pure (w :: ws)

/-- The 18 words FPSH pushes: the status register, then the four accumulators (44_stack R450). -/
def fpBlock (s : State) : List Word :=
  [Fpsr.word1 s.fpsr, Fpsr.word2 s.fpsr] ++ quarters s.fpac.q0 ++ quarters s.fpac.q1 ++ quarters s.fpac.q2 ++
    quarters s.fpac.q3

/-- FPSH: the stack pointer is written once, at completion (44_stack R437, R450; log 29). -/
def execFpsh (s : State) : Host.Outcome State Fault Refusal :=
  runInstr (do
    let sp ← memRead spLoc
    let s ← get
    writeUp (sp.setWidth 15) (fpBlock s)
    memWrite spLoc (sp + 18)
    let next ← nextPc 1
    finishAt next) s

/-- The number whose words, least significant first, start at place `k` of a list. -/
def numberAt (ws : List Word) (k : Nat) : QWord :=
  ws.getD (k + 3) 0 ++ ws.getD (k + 2) 0 ++ ws.getD (k + 1) 0 ++ ws.getD k 0

/-- FPOP: FPAC3 first and the status register last; registers and stack pointer change at completion; no fault check
(44_stack R437, R451; log 29). -/
def execFpop (s : State) : Host.Outcome State Fault Refusal :=
  runInstr (do
    let sp ← memRead spLoc
    let ws ← readDown 18 (sp.setWidth 15)
    memWrite spLoc (sp - 18)
    setFpac 3 (numberAt ws 0)
    setFpac 2 (numberAt ws 4)
    setFpac 1 (numberAt ws 8)
    setFpac 0 (numberAt ws 12)
    setFpsr (Fpsr.ofWords (ws.getD 17 0) (ws.getD 16 0))
    advance 1) s

end Sys2Proof.Machine
end

