-- ==== Sys2Proof/Machine/Float.lean ====
section
/-!
DEFINITION. The floating-point instructions (43_floating_point R350 to R410). FPSH and FPOP are in Stack.lean. An operand that
is neither true zero nor normalised leaves the destination, Z, N and the error bits the instruction can set free (R334;
log 30).
-/

namespace Sys2Proof.Machine

/-! ## Shared operations -/

/-- The value of a memory operand: the word at the lowest address is the most significant (43_floating_point R341). -/
def memFp (p : Prec) (e : Addr) : M QWord :=
  match p with
  | .single => do
    let w0 ← memRead e
    let w1 ← memRead (e + 1)
    pure (w0 ++ w1 ++ (0 : DWord))
  | .double => do
    let w0 ← memRead e
    let w1 ← memRead (e + 1)
    let w2 ← memRead (e + 2)
    let w3 ← memRead (e + 3)
    pure (w0 ++ w1 ++ w2 ++ w3)

/-- The error bits detected are set and FPPC with them (43_floating_point R335). -/
def raise (e : FpErr) : M Unit := modify fun s => { s with fpsr := Fpsr.withErr s.fpsr e s.pc }

/-- `SetZN(x)` (43_floating_point R337). -/
def setZN (x : QWord) : M Unit := modifyFpsr fun f => Fpsr.withZN f x

/-- FPAC and Z, N become those of a value. -/
def setResult (fac : AcNo) (x : QWord) : M Unit := do
  setFpac fac x
  setZN x

/-- A result with its exponent errors (43_floating_point R336). -/
def setFpResult (fac : AcNo) (r : FpResult) : M Unit := do
  raise ⟨r.ovf, r.unf, false, false⟩
  setResult fac r.value

/-- Free values for the error bits an instruction can set; FPPC becomes its address where one is newly raised, and may where
one stands (43_floating_point R334, R335; log 30). -/
def freeErr (can : FpErr) : M Unit := do
  let ovf ← drawBit
  let unf ← drawBit
  let dvz ← drawBit
  let mof ← drawBit
  let here ← drawBit
  modify fun s =>
    let f := s.fpsr
    let g : Fpsr :=
      { f with
        ovf := if can.ovf then ovf else f.ovf, unf := if can.unf then unf else f.unf,
        dvz := if can.dvz then dvz else f.dvz, mof := if can.mof then mof else f.mof }
    let raised := (g.ovf && !f.ovf) || (g.unf && !f.unf) || (g.dvz && !f.dvz) || (g.mof && !f.mof)
    let stands := (can.ovf && g.ovf) || (can.unf && g.unf) || (can.dvz && g.dvz) || (can.mof && g.mof)
    { s with fpsr := { g with fppc := if raised || (here && stands) then s.pc else g.fppc } }

/-- Free Z and N (43_floating_point R334). -/
def freeZN : M Unit := do
  let z ← drawBit
  let n ← drawBit
  modifyFpsr fun f => { f with z := z, n := n }

/-- A free accumulator, free Z and N and free error bits: the result of an operand that is not normalised (43_floating_point
R334, 93_implementation_defined U54). -/
def freeResult (fac : AcNo) (can : FpErr) : M Unit := do
  let v ← drawFree 64
  setFpac fac v
  freeZN
  freeErr can

/-- The exponent errors of the sixteen arithmetic instructions (43_floating_point R338). -/
def expoErr : FpErr := ⟨true, true, false, false⟩

/-- One error bit. -/
def ovfErr : FpErr := ⟨true, false, false, false⟩
/-- One error bit. -/
def unfErr : FpErr := ⟨false, true, false, false⟩
/-- One error bit. -/
def dvzErr : FpErr := ⟨false, false, true, false⟩
/-- One error bit. -/
def mofErr : FpErr := ⟨false, false, false, true⟩

/-- An arithmetic operation on FPAC (first operand and destination) and a source (43_floating_point R360 to R371). -/
def fpArith (p : Prec) (op : QWord → QWord → FpResult) (fac : AcNo) (b : QWord) : M Unit := do
  let a ← getFpac fac
  if isNorm p a && isNorm p b then setFpResult fac (op a b) else freeResult fac expoErr

/-- A mantissa of zero in the bits a precision reads (43_floating_point R372, R373). -/
def mantZero (p : Prec) (x : QWord) : Bool := decide ((unpack p x).mant = 0)

/-- A division: a zero divisor mantissa sets DVZ and leaves the dividend, Z and N (43_floating_point R372 to R375). -/
def fpDivide (p : Prec) (fac : AcNo) (b : QWord) : M Unit := do
  let a ← getFpac fac
  if isNorm p a && isNorm p b then
    if mantZero p b then raise dvzErr else setFpResult fac (fpDiv p a b)
  else
    freeResult fac expoErr
    if mantZero p b then raise dvzErr else pure ()

/-- A location of the stack control words. -/
def isStackWord (a : Addr) : Bool := decide (a = spLoc) || decide (a = fpLoc) || decide (a = slLoc) || decide (a = sfaLoc)

/-- Any values in `n` words above address `a`, the stack control words excepted (43_floating_point R342; log 32). -/
def scratchUp : Nat → Addr → M Unit
  | 0, _ => pure ()
  | n + 1, a => do
    if isStackWord (a + 1) then pure ()
    else
      let w ← drawFree 16
      memWrite (a + 1) w
    scratchUp n (a + 1)

/-- The working storage of multiplication and division above the stack pointer (43_floating_point R342). -/
def scratch (n : Nat) : M Unit := do
  let sp ← memRead spLoc
  scratchUp n (sp.setWidth 15)

/-- An arithmetic instruction between two accumulators. -/
def fpRegReg (p : Prec) (op : QWord → QWord → FpResult) (facs facd : AcNo) : M Unit := do
  let b ← getFpac facs
  fpArith p op facd b

/-- An arithmetic instruction between an accumulator and memory. -/
def fpMemReg (p : Prec) (op : QWord → QWord → FpResult) (fac : AcNo) (ea : ExtAddr) : M Unit := do
  let e ← extEa ea
  let b ← memFp p e
  fpArith p op fac b

/-- A single-accumulator instruction with no precondition whose result is a value without error. -/
def fpUpdate (fac : AcNo) (g : State → QWord → QWord) : M Unit := do
  let s ← get
  setResult fac (g s (s.fpac.get fac))
  fpCheck 1

/-- A floating-point skip (43_floating_point, section 7). -/
def fpSkip (c : Fpsr → Bool) : M Unit := do
  let s ← get
  skipIf 1 (c s.fpsr)

/-! ## Data movement -/

/-- FLDS (43_floating_point R350). -/
def execFlds (fac : AcNo) (ea : ExtAddr) (s : State) : Host.Outcome State Fault Refusal :=
  runInstr (do
    let e ← extEa ea
    let v ← memFp .single e
    setFpac fac v
    advance 2) s

/-- FLDD (43_floating_point R351). -/
def execFldd (fac : AcNo) (ea : ExtAddr) (s : State) : Host.Outcome State Fault Refusal :=
  runInstr (do
    let e ← extEa ea
    let v ← memFp .double e
    setFpac fac v
    advance 2) s

/-- FSTS (43_floating_point R352). -/
def execFsts (fac : AcNo) (ea : ExtAddr) (s : State) : Host.Outcome State Fault Refusal :=
  runInstr (do
    let e ← extEa ea
    let x ← getFpac fac
    memWrite e (quarter x 0)
    memWrite (e + 1) (quarter x 1)
    advance 2) s

/-- FSTD (43_floating_point R353). -/
def execFstd (fac : AcNo) (ea : ExtAddr) (s : State) : Host.Outcome State Fault Refusal :=
  runInstr (do
    let e ← extEa ea
    let x ← getFpac fac
    memWrite e (quarter x 0)
    memWrite (e + 1) (quarter x 1)
    memWrite (e + 2) (quarter x 2)
    memWrite (e + 3) (quarter x 3)
    advance 2) s

/-- FLAS (43_floating_point R354). -/
def execFlas (ac fac : AcNo) (s : State) : Host.Outcome State Fault Refusal :=
  runInstr (do
    let v ← getAc ac
    setResult fac (floatInt .single v.toInt)
    advance 1) s

/-- FLMD (43_floating_point R355). -/
def execFlmd (fac : AcNo) (ea : ExtAddr) (s : State) : Host.Outcome State Fault Refusal :=
  runInstr (do
    let e ← extEa ea
    let hi ← memRead e
    let lo ← memRead (e + 1)
    setResult fac (floatInt .double (hi ++ lo : DWord).toInt)
    advance 2) s

/-- An integer of `n` bits from a magnitude and a sign: the low `n - 1` bits, two's complement where negative
(43_floating_point R356, R357). -/
def fixInt (n : Nat) (neg : Bool) (j : Nat) : BitVec n :=
  let m := BitVec.ofNat n (j % 2 ^ (n - 1))
  if neg then -m else m

/-- FFAS (43_floating_point R356). Z and N stand for every operand, one that is not normalised too: FFAS updates neither
(R337, 92 D93), and R334's list of values then open, which names them, is read as those the instruction writes (log 30). -/
def execFfas (ac fac : AcNo) (s : State) : Host.Outcome State Fault Refusal :=
  runInstr (do
    let x ← getFpac fac
    if isNorm .double x then
      raise ⟨false, false, false, decide (32767 < intPart x)⟩
      setAc ac (fixInt 16 x.msb (intPart x))
    else
      let v ← drawFree 16
      setAc ac v
      freeErr mofErr
    fpCheck 1) s

/-- Store a double word, high-order word first (20_memory R107). -/
def memWritePair (e : Addr) (v : DWord) : M Unit := do
  memWrite e (v.extractLsb' 16 16)
  memWrite (e + 1) (v.extractLsb' 0 16)

/-- FFMD (43_floating_point R357). -/
def execFfmd (fac : AcNo) (ea : ExtAddr) (s : State) : Host.Outcome State Fault Refusal :=
  runInstr (do
    let e ← extEa ea
    let x ← getFpac fac
    if isNorm .double x then
      raise ⟨false, false, false, decide (2147483647 < intPart x)⟩
      memWritePair e (fixInt 32 x.msb (intPart x))
      modifyFpsr fun f => { f with z := false, n := false }
    else
      let v ← drawFree 32
      freeErr mofErr
      memWritePair e v
      freeZN
    fpCheck 2) s

/-- FMOV (43_floating_point R358). -/
def execFmov (facs facd : AcNo) (s : State) : Host.Outcome State Fault Refusal :=
  runInstr (do
    let x ← getFpac facs
    setResult facd x
    fpCheck 1) s

/-! ## Addition and subtraction -/

/-- FAS (43_floating_point R360). -/
def execFas (facs facd : AcNo) (s : State) : Host.Outcome State Fault Refusal :=
  runInstr (do
    fpRegReg .single (fpAdd .single) facs facd
    fpCheck 1) s

/-- FAD (43_floating_point R361). -/
def execFad (facs facd : AcNo) (s : State) : Host.Outcome State Fault Refusal :=
  runInstr (do
    fpRegReg .double (fpAdd .double) facs facd
    fpCheck 1) s

/-- FSS (43_floating_point R364). -/
def execFss (facs facd : AcNo) (s : State) : Host.Outcome State Fault Refusal :=
  runInstr (do
    fpRegReg .single (fpSub .single) facs facd
    fpCheck 1) s

/-- FSD (43_floating_point R365). -/
def execFsd (facs facd : AcNo) (s : State) : Host.Outcome State Fault Refusal :=
  runInstr (do
    fpRegReg .double (fpSub .double) facs facd
    fpCheck 1) s

/-- FAMS (43_floating_point R362). -/
def execFams (fac : AcNo) (ea : ExtAddr) (s : State) : Host.Outcome State Fault Refusal :=
  runInstr (do
    fpMemReg .single (fpAdd .single) fac ea
    fpCheck 2) s

/-- FAMD (43_floating_point R363). -/
def execFamd (fac : AcNo) (ea : ExtAddr) (s : State) : Host.Outcome State Fault Refusal :=
  runInstr (do
    fpMemReg .double (fpAdd .double) fac ea
    fpCheck 2) s

/-- FSMS (43_floating_point R366). -/
def execFsms (fac : AcNo) (ea : ExtAddr) (s : State) : Host.Outcome State Fault Refusal :=
  runInstr (do
    fpMemReg .single (fpSub .single) fac ea
    fpCheck 2) s

/-- FSMD (43_floating_point R367). -/
def execFsmd (fac : AcNo) (ea : ExtAddr) (s : State) : Host.Outcome State Fault Refusal :=
  runInstr (do
    fpMemReg .double (fpSub .double) fac ea
    fpCheck 2) s

/-! ## Multiplication and division -/

/-- FMS (43_floating_point R368). -/
def execFms (facs facd : AcNo) (s : State) : Host.Outcome State Fault Refusal :=
  runInstr (do
    fpRegReg .single (fpMul .single) facs facd
    fpCheck 1) s

/-- FMD (43_floating_point R369). -/
def execFmd (facs facd : AcNo) (s : State) : Host.Outcome State Fault Refusal :=
  runInstr (do
    fpRegReg .double (fpMul .double) facs facd
    scratch 4
    fpCheck 1) s

/-- FMMS (43_floating_point R370). -/
def execFmms (fac : AcNo) (ea : ExtAddr) (s : State) : Host.Outcome State Fault Refusal :=
  runInstr (do
    fpMemReg .single (fpMul .single) fac ea
    fpCheck 2) s

/-- FMMD (43_floating_point R371). -/
def execFmmd (fac : AcNo) (ea : ExtAddr) (s : State) : Host.Outcome State Fault Refusal :=
  runInstr (do
    fpMemReg .double (fpMul .double) fac ea
    scratch 4
    fpCheck 2) s

/-- FDS (43_floating_point R372). -/
def execFds (facs facd : AcNo) (s : State) : Host.Outcome State Fault Refusal :=
  runInstr (do
    let b ← getFpac facs
    fpDivide .single facd b
    scratch 6
    fpCheck 1) s

/-- FDD (43_floating_point R373). -/
def execFdd (facs facd : AcNo) (s : State) : Host.Outcome State Fault Refusal :=
  runInstr (do
    let b ← getFpac facs
    fpDivide .double facd b
    scratch 14
    fpCheck 1) s

/-- A number with bits 32-63 zero (43_floating_point R374). -/
def clearLow (x : QWord) : QWord := x.extractLsb' 32 32 ++ (0 : DWord)

/-- FDMS (43_floating_point R374): bits 32-63 of FPAC are cleared first. -/
def execFdms (fac : AcNo) (ea : ExtAddr) (s : State) : Host.Outcome State Fault Refusal :=
  runInstr (do
    let e ← extEa ea
    let b ← memFp .single e
    let a ← getFpac fac
    setFpac fac (clearLow a)
    fpDivide .single fac b
    scratch 6
    fpCheck 2) s

/-- FDMD (43_floating_point R375). -/
def execFdmd (fac : AcNo) (ea : ExtAddr) (s : State) : Host.Outcome State Fault Refusal :=
  runInstr (do
    let e ← extEa ea
    let b ← memFp .double e
    fpDivide .double fac b
    scratch 14
    fpCheck 2) s

/-! ## Single-accumulator operations -/

/-- FNOM (43_floating_point R380): accepts every bit pattern, makes no fault check. -/
def execFnom (fac : AcNo) (s : State) : Host.Outcome State Fault Refusal :=
  runInstr (do
    let x ← getFpac fac
    let u := unpack .double x
    setFpResult fac (finishFp .double u.sign (Int.ofNat u.expo) (16 * u.mant))
    advance 1) s

/-- FRH (43_floating_point R381). -/
def execFrh (fac : AcNo) (s : State) : Host.Outcome State Fault Refusal :=
  runInstr (do
    let x ← getFpac fac
    setAc 0 (quarter x 0)
    advance 1) s

/-- FAB (43_floating_point R382). -/
def execFab (fac : AcNo) (s : State) : Host.Outcome State Fault Refusal :=
  runInstr (fpUpdate fac fun _ x => x &&& 0x7FFFFFFFFFFFFFFF) s

/-- FNEG (43_floating_point R383). -/
def execFneg (fac : AcNo) (s : State) : Host.Outcome State Fault Refusal :=
  runInstr (fpUpdate fac fun _ x => if x = 0 then x else negSign x) s

/-- FSCAL (43_floating_point R384). -/
def execFscal (fac : AcNo) (s : State) : Host.Outcome State Fault Refusal :=
  runInstr (do
    let x ← getFpac fac
    let a0 ← getAc 0
    let r := scale x (a0.extractLsb' 8 7).toNat
    raise ⟨false, false, false, r.2⟩
    setResult fac r.1
    fpCheck 1) s

/-- FEXP (43_floating_point R385). -/
def execFexp (fac : AcNo) (s : State) : Host.Outcome State Fault Refusal :=
  runInstr (fpUpdate fac fun s x => if x = 0 then x else withExpo x ((s.ac.get 0).extractLsb' 8 7)) s

/-- FINT (43_floating_point R386). -/
def execFint (fac : AcNo) (s : State) : Host.Outcome State Fault Refusal :=
  runInstr (do
    let x ← getFpac fac
    if isNorm .double x then setResult fac (integerize x) else freeResult fac FpErr.none
    fpCheck 1) s

/-- FHLV (43_floating_point R387). -/
def execFhlv (fac : AcNo) (s : State) : Host.Outcome State Fault Refusal :=
  runInstr (do
    let x ← getFpac fac
    let u := unpack .double x
    if isNorm .double x then setFpResult fac (finishFp .double u.sign (Int.ofNat u.expo) (8 * u.mant))
    else freeResult fac unfErr
    fpCheck 1) s

/-- The Z and N of FCMP, as of FACD minus FACS: the one definition of the sense of N (43_floating_point R388, D94). -/
def compareZN (src dst : QWord) (f : Fpsr) : Fpsr :=
  { f with z := decide (scaledValue src = scaledValue dst), n := decide (scaledValue dst < scaledValue src) }

/-- FCMP (43_floating_point R388). -/
def execFcmp (facs facd : AcNo) (s : State) : Host.Outcome State Fault Refusal :=
  runInstr (do
    let a ← getFpac facs
    let b ← getFpac facd
    if isNorm .double a && isNorm .double b then modifyFpsr (compareZN a b) else freeZN
    advance 1) s

/-! ## Skips -/

/-- FNS (43_floating_point R390). -/
def execFns (s : State) : Host.Outcome State Fault Refusal :=
  runInstr (fpSkip fun _ => false) s

/-- FSA (43_floating_point R391). -/
def execFsa (s : State) : Host.Outcome State Fault Refusal :=
  runInstr (fpSkip fun _ => true) s

/-- FSEQ (43_floating_point R392). -/
def execFseq (s : State) : Host.Outcome State Fault Refusal :=
  runInstr (fpSkip fun f => f.z) s

/-- FSNE (43_floating_point R393). -/
def execFsne (s : State) : Host.Outcome State Fault Refusal :=
  runInstr (fpSkip fun f => !f.z) s

/-- FSLT (43_floating_point R394). -/
def execFslt (s : State) : Host.Outcome State Fault Refusal :=
  runInstr (fpSkip fun f => f.n) s

/-- FSGE (43_floating_point R395). -/
def execFsge (s : State) : Host.Outcome State Fault Refusal :=
  runInstr (fpSkip fun f => !f.n) s

/-- FSLE (43_floating_point R396). -/
def execFsle (s : State) : Host.Outcome State Fault Refusal :=
  runInstr (fpSkip fun f => f.z || f.n) s

/-- FSGT (43_floating_point R397). -/
def execFsgt (s : State) : Host.Outcome State Fault Refusal :=
  runInstr (fpSkip fun f => !f.z && !f.n) s

/-- FSNM (43_floating_point R398). -/
def execFsnm (s : State) : Host.Outcome State Fault Refusal :=
  runInstr (fpSkip fun f => !f.mof) s

/-- FSND (43_floating_point R399). -/
def execFsnd (s : State) : Host.Outcome State Fault Refusal :=
  runInstr (fpSkip fun f => !f.dvz) s

/-- FSNU (43_floating_point R400). -/
def execFsnu (s : State) : Host.Outcome State Fault Refusal :=
  runInstr (fpSkip fun f => !f.unf) s

/-- FSNUD (43_floating_point R401). -/
def execFsnud (s : State) : Host.Outcome State Fault Refusal :=
  runInstr (fpSkip fun f => !f.unf && !f.dvz) s

/-- FSNO (43_floating_point R402). -/
def execFsno (s : State) : Host.Outcome State Fault Refusal :=
  runInstr (fpSkip fun f => !f.ovf) s

/-- FSNOD (43_floating_point R403). -/
def execFsnod (s : State) : Host.Outcome State Fault Refusal :=
  runInstr (fpSkip fun f => !f.ovf && !f.dvz) s

/-- FSNUO (43_floating_point R404). -/
def execFsnuo (s : State) : Host.Outcome State Fault Refusal :=
  runInstr (fpSkip fun f => !f.unf && !f.ovf) s

/-- FSNER (43_floating_point R405). -/
def execFsner (s : State) : Host.Outcome State Fault Refusal :=
  runInstr (fpSkip fun f => !f.ovf && !f.unf && !f.dvz && !f.mof) s

/-! ## Status register -/

/-- FSST (43_floating_point R406). -/
def execFsst (ea : ExtAddr) (s : State) : Host.Outcome State Fault Refusal :=
  runInstr (do
    let e ← extEa ea
    let s ← get
    memWrite e (Fpsr.word1 s.fpsr)
    memWrite (e + 1) (Fpsr.word2 s.fpsr)
    advance 2) s

/-- FLST (43_floating_point R407). -/
def execFlst (ea : ExtAddr) (s : State) : Host.Outcome State Fault Refusal :=
  runInstr (do
    let e ← extEa ea
    let w1 ← memRead e
    let w2 ← memRead (e + 1)
    let s ← get
    let f := Fpsr.ofWords w1 w2
    setFpsr (if Fpsr.any f then { f with fppc := s.pc } else f)
    fpCheck 2) s

/-- FTE (43_floating_point R408). -/
def execFte (s : State) : Host.Outcome State Fault Refusal :=
  runInstr (do
    modifyFpsr fun f => { f with te := true }
    fpCheck 1) s

/-- FTD (43_floating_point R409). -/
def execFtd (s : State) : Host.Outcome State Fault Refusal :=
  runInstr (do
    modifyFpsr fun f => { f with te := false }
    advance 1) s

/-- FCLE (43_floating_point R410). -/
def execFcle (s : State) : Host.Outcome State Fault Refusal :=
  runInstr (do
    modifyFpsr fun f => { f with ovf := false, unf := false, dvz := false, mof := false }
    advance 1) s

end Sys2Proof.Machine
end

