-- ==== Sys2Proof/Machine/Flow.lean ====
section
/-!
DEFINITION. Program flow: jumps, skips, dispatch, the system call and the extended operations (45_program_flow). XCT is in
Execute.lean.
-/

namespace Sys2Proof.Machine

/-! ## Jumps -/

/-- JMP (45_program_flow R465). -/
def execJmp (ea : ShortAddr) (s : State) : Host.Outcome State Fault Refusal :=
  runInstr (do
    let e ← shortEa ea
    setPc e) s

/-- EJMP (45_program_flow R467). -/
def execEjmp (ea : ExtAddr) (s : State) : Host.Outcome State Fault Refusal :=
  runInstr (do
    let e ← extEa ea
    setPc e) s

/-- Jump to a subroutine at `e` from an instruction of `len` words: AC3 receives the next sequential address
(45_program_flow R466, R468). -/
def jumpSub (len : Nat) (e : Addr) : M Unit := do
  let s ← get
  setAc 3 (joinWord false (s.pc + BitVec.ofNat 15 len))
  setPc e

/-- JSR: the effective address is computed before AC3 changes (45_program_flow R466). -/
def execJsr (ea : ShortAddr) (s : State) : Host.Outcome State Fault Refusal :=
  runInstr (do
    let e ← shortEa ea
    jumpSub 1 e) s

/-- EJSR (45_program_flow R468). -/
def execEjsr (ea : ExtAddr) (s : State) : Host.Outcome State Fault Refusal :=
  runInstr (do
    let e ← extEa ea
    jumpSub 2 e) s

/-! ## Skips -/

/-- Add `d` to a word of memory and skip if the result is zero, the memory bus held between read and write (45_program_flow
R469 to R472, 20_memory R141). -/
def countAndSkip (len : Nat) (d : Word) (e : Addr) : M Unit := do
  let v ← memRead e
  memWriteHeld e (v + d)
  skipIf len (decide (v + d = 0))

/-- ISZ (45_program_flow R469). -/
def execIsz (ea : ShortAddr) (s : State) : Host.Outcome State Fault Refusal :=
  runInstr (do
    let e ← shortEa ea
    countAndSkip 1 1 e) s

/-- DSZ (45_program_flow R470). -/
def execDsz (ea : ShortAddr) (s : State) : Host.Outcome State Fault Refusal :=
  runInstr (do
    let e ← shortEa ea
    countAndSkip 1 (-1) e) s

/-- EISZ (45_program_flow R471). -/
def execEisz (ea : ExtAddr) (s : State) : Host.Outcome State Fault Refusal :=
  runInstr (do
    let e ← extEa ea
    countAndSkip 2 1 e) s

/-- EDSZ (45_program_flow R472). -/
def execEdsz (ea : ExtAddr) (s : State) : Host.Outcome State Fault Refusal :=
  runInstr (do
    let e ← extEa ea
    countAndSkip 2 (-1) e) s

/-- Skip on a comparison of two accumulators. -/
def compareSkip (acs acd : AcNo) (c : Word → Word → Bool) : M Unit := do
  let x ← getAc acs
  let y ← getAc acd
  skipIf 1 (c x y)

/-- SGE (45_program_flow R473). -/
def execSge (acs acd : AcNo) (s : State) : Host.Outcome State Fault Refusal :=
  runInstr (compareSkip acs acd fun x y => decide (y.toInt ≤ x.toInt)) s

/-- SGT (45_program_flow R474). -/
def execSgt (acs acd : AcNo) (s : State) : Host.Outcome State Fault Refusal :=
  runInstr (compareSkip acs acd fun x y => decide (y.toInt < x.toInt)) s

/-- A signed number lies between two signed limits (45_program_flow R475). -/
def inLimits (l h n : Word) : Bool := decide (l.toInt ≤ n.toInt) && decide (n.toInt ≤ h.toInt)

/-- CLM: the limits stand at the address in ACD, or after the instruction where ACS and ACD are one accumulator
(45_program_flow R475). -/
def execClm (acs acd : AcNo) (s : State) : Host.Outcome State Fault Refusal :=
  runInstr (do
    let s ← get
    let a := if acs = acd then s.pc + 1 else indexOf s acd
    let l ← memRead a
    let h ← memRead (a + 1)
    skipIf (if acs = acd then 3 else 1) (inLimits l h (s.ac.get acs))) s

/-! ## Dispatch -/

/-- DSPA (45_program_flow R476). -/
def execDspa (ac : AcNo) (ea : ExtAddr) (s : State) : Host.Outcome State Fault Refusal :=
  runInstr (do
    let e ← extEa ea
    let h ← memRead (e - 1)
    let l ← memRead (e - 2)
    let n ← getAc ac
    if inLimits l h n then
      let w ← memRead (e + (n - l).setWidth 15)
      if w = 0o177777 then advance 2
      else
        let t ← resolveWord w
        setPc t
    else advance 2) s

/-! ## System call and extended operations -/

/-- SYC: the map off first, a return block unless both fields are zero, a jump indirect through location 2, and no interrupt
before the next instruction has executed (45_program_flow R484). -/
def execSyc (acs acd : AcNo) (s : State) : Host.Outcome State Fault Refusal :=
  runInstr (do
    modify fun s => { s with mapOn := false }
    if acs = 0 && acd = 0 then
      let t ← indirectAt 2
      setPc t
    else
      let s ← get
      takeTrap 2 (s.pc + 1)
    modify fun s => { s with ionHold := .last }) s

/-- The extended operation numbered `n`: a return block, the addresses of the saved copies of ACS and ACD in AC2 and AC3, and
a jump through the table whose origin is in location 44 (45_program_flow R490). The table entry is the first pointer of a
chain, as 20_memory R117 says: it counts as a level of 47_map R585 and completes a pending user enable, where R490's own
steps read it as an ordinary word; the model's choice between the two (log 55). -/
def extendedOp (acs acd : AcNo) (n : Nat) : M Unit := do
  let sp0 ← memRead spLoc
  let s ← get
  pushBlock (s.pc + 1)
  setAc 2 (joinWord false (sp0.setWidth 15 + 1 + acs.setWidth 15))
  setAc 3 (joinWord false (sp0.setWidth 15 + 1 + acd.setWidth 15))
  let origin ← memRead 0o44
  let t ← indirectAt (origin.setWidth 15 + BitVec.ofNat 15 n)
  finishAt t

/-- XOP (45_program_flow R490). -/
def execXop (acs acd : AcNo) (op : BitVec 5) (s : State) : Host.Outcome State Fault Refusal :=
  runInstr (extendedOp acs acd op.toNat) s

/-- XOP1: the table words after the first 32 (45_program_flow R491). -/
def execXop1 (acs acd : AcNo) (op : BitVec 4) (s : State) : Host.Outcome State Fault Refusal :=
  runInstr (extendedOp acs acd (op.toNat + 32)) s

end Sys2Proof.Machine
end

