-- ==== Sys2Proof/Machine/MapUnit.lean ====
section
/-!
DEFINITION. The MAP's instructions (47_map R591 to R599).
-/

namespace Sys2Proof.Machine

/-- The number of the map a map-select code names within its group: the codes run A, C, B, D (47_map R573). -/
def selNumber (m : BitVec 3) : AcNo :=
  match (m.setWidth 2).toNat with
  | 0 => 0
  | 1 => 2
  | 2 => 1
  | _ => 3

/-- A map-select code names a data channel map (47_map R573). -/
def selIsDch (m : BitVec 3) : Bool := m.msb

/-- The entry of the map a code names (47_map R573). -/
def selEntry (s : State) (m : BitVec 3) (p : BitVec 5) : MapEntry :=
  if selIsDch m then PageMap.entry (s.dmap.get (selNumber m)) p else PageMap.entry (s.umap.get (selNumber m)) p

/-- The state with the entry of the map a code names replaced (47_map R573). -/
def setSelEntry (s : State) (m : BitVec 3) (p : BitVec 5) (e : MapEntry) : State :=
  if selIsDch m then
    { s with dmap := s.dmap.set (selNumber m) (PageMap.setEntry (s.dmap.get (selNumber m)) p e) }
  else { s with umap := s.umap.set (selNumber m) (PageMap.setEntry (s.umap.get (selNumber m)) p e) }

/-! ## LMP -/

/-- The entry a loaded word describes (47_map R572). -/
def entryOfWord (w : Word) : MapEntry := ⟨w.msb, w.setWidth 10⟩

/-- The logical page a loaded word names (47_map R572). -/
def pageOfWord (w : Word) : BitVec 5 := w.extractLsb' 10 5

/-- Load one word into the selected map; where AC0 is neither 0 nor 3 the entry is any value (47_map R591,
93_implementation_defined U21). -/
def loadEntry (w : Word) : M Unit := do
  let a0 ← getAc 0
  if a0 = 0 || a0 = 3 then
    modify fun s => setSelEntry s s.ms.mapsel (pageOfWord w) (entryOfWord w)
  else
    let wp ← drawBit
    let pp ← drawFree 10
    modify fun s => setSelEntry s s.ms.mapsel (pageOfWord w) ⟨wp, pp⟩

/-- One word of LMP: AC1 down, AC2 up (47_map R591). -/
def lmpWord : M Unit := do
  let a ← getAc 2
  let w ← memRead (a.setWidth 15)
  loadEntry w
  let n ← getAc 1
  setAc 1 (n - 1)
  setAc 2 (a + 1)

/-- The loop of LMP. It may be interrupted, and so ends the step, after each word whose successor is found by re-execution; a
step goes on where AC2 has been incremented past 77777, since re-execution would take its bit 0 for an indirect address
(47_map R591; log 28). `again` is what the step does after a word that is not the last. -/
def lmpLoop (again : M Unit) : Nat → M Unit
  | 0 => advance 1
  | fuel + 1 => do
    let n ← getAc 1
    if n = 0 then advance 1
    else
      lmpWord
      let s ← get
      if s.ac.get 1 = 0 then advance 1
      else if (s.ac.get 2).msb then lmpLoop again fuel
      else again

/-- The steps of LMP: under I/O protection a fault, whatever the LEF mode (47_map R579, R591). -/
def lmpStep (again : M Unit) : M Unit := do
  let s ← get
  if s.mapOn && s.ms.iop then stop (.mapFault .io)
  else
    resolveAc 2
    lmpLoop again 65536

/-- LMP (47_map R591). A step that does not end it leaves the next step to fetch LMP again, through the map as it then is, and
to test I/O protection again, whether or not an interrupt came (42_data_movement R306). R591's loop goes on without a fetch:
the difference shows in an LMP, not interrupted, that remaps the page it stands in or turns the map on through the chain of
AC2, part-way; the rest of its words may then not be loaded (log 28). -/
def execLmp (s : State) : Host.Outcome State Fault Refusal := runInstr (lmpStep (pure ())) s

/-- LMP of a word `w` that XCT took (45_program_flow R480). -/
def execLmpUnder (w : Word) (s : State) : Host.Outcome State Fault Refusal := runInstr (lmpStep (keepWord w)) s

/-! ## The device instructions -/

/-- NIOP MAP: from mapped mode the map goes off; from unmapped mode a single cycle is pending (47_map R598). -/
def niopAction (s : State) : State := if s.mapOn then { s with mapOn := false } else { s with scPending := true }

/-- f of an instruction to the MAP: only P has an effect (47_map R599, D20). -/
def mapFlag (f : IoFlag) : M Unit :=
  match f with
  | .none => pure ()
  | .start => pure ()
  | .clear => pure ()
  | .pulse => modify niopAction

/-- The MAP status loaded from a word: the read-only bits stand (47_map R593). -/
def loadStatus (m : MapStatus) (v : Word) : MapStatus :=
  { m with
    nme := BitVec.ofBool (v.getMsbD 0) ++ BitVec.ofBool (v.getMsbD 13)
    mapsel := v.extractLsb' 7 3
    lef := v.getMsbD 9
    iop := v.getMsbD 10
    wpe := v.getMsbD 11
    indp := v.getMsbD 12
    dch := v.getMsbD 14
    ue := v.getMsbD 15 }

/-- DOA MAP: user enable waits for an indirect reference or a return; until then, and without it, references are unmapped
(47_map R593, R601; log 22). -/
def loadMapStatus (v : Word) (s : State) : State :=
  { s with ms := loadStatus s.ms v, mapPending := v.getMsbD 15, mapOn := false }

/-- The word DIA MAP delivers (47_map R594). -/
def statusImage (s : State) : Word :=
  BitVec.ofBool s.ms.nme.msb ++ BitVec.ofBool s.mapOn ++ BitVec.ofBool s.ms.fIo ++ BitVec.ofBool s.ms.fWp ++
    BitVec.ofBool s.ms.fInd ++ BitVec.ofBool s.ms.sc ++ s.ms.mapsel ++ BitVec.ofBool s.ms.lef ++
    BitVec.ofBool s.ms.iop ++ BitVec.ofBool s.ms.wpe ++ BitVec.ofBool s.ms.indp ++
    BitVec.ofBool (s.ms.nme.getLsbD 0) ++ BitVec.ofBool s.ms.dch ++ BitVec.ofBool s.ms.um

/-- The word DIC MAP delivers: reserved bits 4-5 are zero (47_map R597). -/
def pageCheckWord (s : State) : Word :=
  let e := selEntry s s.ms.mapsel s.pchk
  BitVec.ofBool e.wp ++ s.ms.mapsel ++ (0 : BitVec 2) ++ e.ppage

/-- DIA MAP (47_map R594). -/
def execDiaMap (ac : AcNo) (f : IoFlag) (s : State) : Host.Outcome State Fault Refusal :=
  runInstr (ioInstr (do
    let s ← get
    setAc ac (statusImage s)) (mapFlag f)) s

/-- DOA MAP (47_map R593). -/
def execDoaMap (ac : AcNo) (f : IoFlag) (s : State) : Host.Outcome State Fault Refusal :=
  runInstr (ioInstr (do
    let v ← getAc ac
    modify (loadMapStatus v)) (mapFlag f)) s

/-- DOB MAP (47_map R595). -/
def execDobMap (ac : AcNo) (f : IoFlag) (s : State) : Host.Outcome State Fault Refusal :=
  runInstr (ioInstr (do
    let v ← getAc ac
    modify fun s => { s with p31 := v.setWidth 10 }) (mapFlag f)) s

/-- DIC MAP (47_map R597). -/
def execDicMap (ac : AcNo) (f : IoFlag) (s : State) : Host.Outcome State Fault Refusal :=
  runInstr (ioInstr (do
    let s ← get
    setAc ac (pageCheckWord s)) (mapFlag f)) s

/-- DOC MAP (47_map R596). -/
def execDocMap (ac : AcNo) (f : IoFlag) (s : State) : Host.Outcome State Fault Refusal :=
  runInstr (ioInstr (do
    let v ← getAc ac
    modify fun s => { s with pchk := v.extractLsb' 10 5, ms := { s.ms with mapsel := v.extractLsb' 7 3 } })
    (mapFlag f)) s

/-- NIOP MAP (47_map R598). -/
def execNiopMap (_ac : AcNo) (s : State) : Host.Outcome State Fault Refusal :=
  runInstr (ioInstr (pure ()) (mapFlag .pulse)) s

/-- NIO MAP with f other than P: no effect (47_map R599). -/
def execNioMap (_ac : AcNo) (f : IoFlag) (s : State) : Host.Outcome State Fault Refusal :=
  runInstr (ioInstr (pure ()) (mapFlag f)) s

/-- DIB MAP: any value (47_map R599, 93_implementation_defined U23). -/
def execDibMap (ac : AcNo) (f : IoFlag) (s : State) : Host.Outcome State Fault Refusal :=
  runInstr (ioInstr (do
    let v ← drawFree 16
    setAc ac v) (mapFlag f)) s

/-- DIS MAP: any value (47_map R599, 93_implementation_defined U23). -/
def execDisMap (ac : AcNo) (_f : IoFlag) (s : State) : Host.Outcome State Fault Refusal :=
  runInstr (do
    ioProtect
    let v ← drawFree 16
    setAc ac v
    advance 1) s

end Sys2Proof.Machine
end

