-- ==== Sys2Proof/Machine/Execute.lean ====
section
/-!
DEFINITION. The decode stage shared by the fetch cycle and XCT, undefined instructions (60_exceptions R650 to R652), and XCT
(45_program_flow R480).
-/

namespace Sys2Proof.Machine

/-- I/O-format words are LEF instructions: user mode with LEF mode on (47_map R580). -/
def lefMode (s : State) : Bool := s.mapOn && s.ms.lef

/-- I/O-format instructions are protected (47_map R579). -/
def ioProtected (s : State) : Bool := s.mapOn && s.ms.iop && !s.ms.lef

/-- The first word of VCT (46_io R540). -/
def vctWord : Word := 0o061777

/-- The second word of the instruction at the program counter whose first word is `w`: read only where there is one, and not
for a VCT that I/O protection stops at decode (30_encoding R160, 60_exceptions R656). -/
def secondWord (w : Word) : M Word := do
  let s ← get
  if wordsOf (lefMode s) w = 2 && !(ioProtected s && decide (w = vctWord)) then memRead (s.pc + 1) else pure 0

/-- An undefined word at the program counter: in mapped mode the emulator trap through location 11, unless that location
holds zero (60_exceptions R650); in unmapped mode a one-word no-operation (60_exceptions R652; log 19). -/
def undefinedWord (s : State) : Host.Outcome State Fault Refusal :=
  runInstr (do
    let s ← get
    if s.mapOn then
      let v ← memRead 0o11
      if v = 0 then advance 1 else takeTrap 0o11 (s.pc + 1)
    else advance 1) s

/-- What XCT does with the instruction `i` of the word `w`: it executes at the XCT's own address. An XCT ends the step with
the program counter unchanged, and its word is executed next, there; BLM and LMP with items left keep their word, so that it
is taken once; the five instructions the manual excludes are refused (45_program_flow R480, 93_implementation_defined U53;
log 20). -/
def execUnder (w : Word) (i : Instr) (s : State) : Host.Outcome State Fault Refusal :=
  match i with
  | .jmp ea => execJmp ea s
  | .jsr ea => execJsr ea s
  | .isz ea => execIsz ea s
  | .dsz ea => execDsz ea s
  | .lda ac ea => execLda ac ea s
  | .sta ac ea => execSta ac ea s
  | .lef ac ea => execLef ac ea s
  | .com o => execCom o s
  | .neg o => execNeg o s
  | .mov o => execMov o s
  | .inc o => execInc o s
  | .adc o => execAdc o s
  | .sub o => execSub o s
  | .add o => execAdd o s
  | .and o => execAnd o s
  | .adi n ac => execAdi n ac s
  | .sbi n ac => execSbi n ac s
  | .dad acs acd => execDad acs acd s
  | .dsb acs acd => execDsb acs acd s
  | .ior acs acd => execIor acs acd s
  | .xor acs acd => execXor acs acd s
  | .anc acs acd => execAnc acs acd s
  | .xch acs acd => execXch acs acd s
  | .sgt acs acd => execSgt acs acd s
  | .sge acs acd => execSge acs acd s
  | .lsh acs acd => execLsh acs acd s
  | .dlsh acs acd => execDlsh acs acd s
  | .hxl n ac => execHxl n ac s
  | .hxr n ac => execHxr n ac s
  | .dhxl n ac => execDhxl n ac s
  | .dhxr n ac => execDhxr n ac s
  | .bto acs acd => execBto acs acd s
  | .btz acs acd => execBtz acs acd s
  | .szb acs acd => execSzb acs acd s
  | .szbo acs acd => execSzbo acs acd s
  | .lob acs acd => execLob acs acd s
  | .lrb acs acd => execLrb acs acd s
  | .cob acs acd => execCob acs acd s
  | .ldb acs acd => execLdb acs acd s
  | .stb acs acd => execStb acs acd s
  | .psh acs acd => execPsh acs acd s
  | .pop acs acd => execPop acs acd s
  | .syc acs acd => execSyc acs acd s
  | .lmp => execLmpUnder w s
  | .pshr => execPshr s
  | .popb => execPopb s
  | .bam => .refused .xctOfRestarting
  | .popj => execPopj s
  | .rtn => execRtn s
  | .blm => execBlmUnder w s
  | .divx => execDivx s
  | .mul => execMul s
  | .muls => execMuls s
  | .div => execDiv s
  | .divs => execDivs s
  | .save i => execSave i s
  | .rstr => execRstr s
  | .xop acs acd op => execXop acs acd op s
  | .xop1 acs acd op => execXop1 acs acd op s
  | .ejmp ea => execEjmp ea s
  | .ejsr ea => execEjsr ea s
  | .eisz ea => execEisz ea s
  | .edsz ea => execEdsz ea s
  | .pshj ea => execPshj ea s
  | .elda ac ea => execElda ac ea s
  | .esta ac ea => execEsta ac ea s
  | .elef ac ea => execElef ac ea s
  | .eldb ac idx disp => execEldb ac idx disp s
  | .estb ac idx disp => execEstb ac idx disp s
  | .dspa ac ea => execDspa ac ea s
  | .clm acs acd => execClm acs acd s
  | .snb acs acd => execSnb acs acd s
  | .msp ac => execMsp ac s
  | .xct _ => .next { s with xct := some w }
  | .hlv ac => execHlv ac s
  | .iori ac i => execIori ac i s
  | .xori ac i => execXori ac i s
  | .andi ac i => execAndi ac i s
  | .addi ac i => execAddi ac i s
  | .fas facs facd => execFas facs facd s
  | .fad facs facd => execFad facs facd s
  | .fss facs facd => execFss facs facd s
  | .fsd facs facd => execFsd facs facd s
  | .fms facs facd => execFms facs facd s
  | .fmd facs facd => execFmd facs facd s
  | .fds facs facd => execFds facs facd s
  | .fdd facs facd => execFdd facs facd s
  | .fams fac ea => execFams fac ea s
  | .famd fac ea => execFamd fac ea s
  | .fsms fac ea => execFsms fac ea s
  | .fsmd fac ea => execFsmd fac ea s
  | .fmms fac ea => execFmms fac ea s
  | .fmmd fac ea => execFmmd fac ea s
  | .fdms fac ea => execFdms fac ea s
  | .fdmd fac ea => execFdmd fac ea s
  | .flds fac ea => execFlds fac ea s
  | .fldd fac ea => execFldd fac ea s
  | .fsts fac ea => execFsts fac ea s
  | .fstd fac ea => execFstd fac ea s
  | .flmd fac ea => execFlmd fac ea s
  | .ffmd fac ea => execFfmd fac ea s
  | .flas ac fac => execFlas ac fac s
  | .ffas ac fac => execFfas ac fac s
  | .fnom fac => execFnom fac s
  | .frh fac => execFrh fac s
  | .fab fac => execFab fac s
  | .fneg fac => execFneg fac s
  | .fscal fac => execFscal fac s
  | .fexp fac => execFexp fac s
  | .fint fac => execFint fac s
  | .fhlv fac => execFhlv fac s
  | .fns => execFns s
  | .fsa => execFsa s
  | .fseq => execFseq s
  | .fsne => execFsne s
  | .fslt => execFslt s
  | .fsge => execFsge s
  | .fsle => execFsle s
  | .fsgt => execFsgt s
  | .fsnm => execFsnm s
  | .fsnd => execFsnd s
  | .fsnu => execFsnu s
  | .fsnud => execFsnud s
  | .fsno => execFsno s
  | .fsnod => execFsnod s
  | .fsnuo => execFsnuo s
  | .fsner => execFsner s
  | .fsst ea => execFsst ea s
  | .flst ea => execFlst ea s
  | .fte => execFte s
  | .ftd => execFtd s
  | .fcle => execFcle s
  | .fpsh => execFpsh s
  | .fpop => execFpop s
  | .fcmp facs facd => execFcmp facs facd s
  | .fmov facs facd => execFmov facs facd s
  | .cmv => .refused .xctOfRestarting
  | .cmp => .refused .xctOfRestarting
  | .ctr => .refused .xctOfRestarting
  | .cmt => .refused .xctOfRestarting
  | .nio ac f dev => execNio ac f dev s
  | .dia ac f dev => execDia ac f dev s
  | .doa ac f dev => execDoa ac f dev s
  | .dib ac f dev => execDib ac f dev s
  | .dob ac f dev => execDob ac f dev s
  | .dic ac f dev => execDic ac f dev s
  | .doc ac f dev => execDoc ac f dev s
  | .skp t dev => execSkp t dev s
  | .dis ac f dev => execDis ac f dev s
  | .inten ac => execInten ac s
  | .intds ac => execIntds ac s
  | .nioCpu ac f => execNioCpu ac f s
  | .reads ac f => execReads ac f s
  | .doaCpu ac f => execDoaCpu ac f s
  | .doapCpu ac => execDoapCpu ac s
  | .inta ac f => execInta ac f s
  | .vct stackChange table => execVct stackChange table s
  | .msko ac f => execMsko ac f s
  | .iorst ac f => execIorst ac f s
  | .halta ac f => execHalta ac f s
  | .skpCpu t => execSkpCpu t s
  | .disCpu ac f => execDisCpu ac f s
  | .diaMap ac f => execDiaMap ac f s
  | .doaMap ac f => execDoaMap ac f s
  | .dobMap ac f => execDobMap ac f s
  | .dicMap ac f => execDicMap ac f s
  | .docMap ac f => execDocMap ac f s
  | .niopMap ac => execNiopMap ac s
  | .nioMap ac f => execNioMap ac f s
  | .dibMap ac f => execDibMap ac f s
  | .disMap ac f => execDisMap ac f s
  | .diaTti ac f => execDiaTti ac f s
  | .doaTto ac f => execDoaTto ac f s
  | .doaRtc ac f => execDoaRtc ac f s
  | .diaPit ac f => execDiaPit ac f s
  | .doaPit ac f => execDoaPit ac f s
  | .doaErcc ac f => execDoaErcc ac f s
  | .diaErcc ac f => execDiaErcc ac f s
  | .dibErcc ac f => execDibErcc ac f s
  | .diaApl ac f => execDiaApl ac f s
  | .doaApl ac f => execDoaApl ac f s

/-- XCT (45_program_flow R480). -/
def execXct (ac : AcNo) (s : State) : Host.Outcome State Fault Refusal :=
  match secondWord (s.ac.get ac) s with
  | .error e s1 => finish (.error e s1)
  | .ok w2 s1 =>
    match decodeWords (lefMode s) (s.ac.get ac) w2 with
    | some i => execUnder (s.ac.get ac) i s1
    | none => undefinedWord s1

end Sys2Proof.Machine
end

