-- ==== Sys2Proof/Machine/Dispatch.lean ====
section
/-! DEFINITION. The dispatch of every instruction to its meaning. -/

namespace Sys2Proof.Machine

def exec (i : Instr) (s : State) : Host.Outcome State Fault Refusal :=
  match i with
  | .jmp ea => Sys2Proof.Machine.execJmp ea s
  | .jsr ea => Sys2Proof.Machine.execJsr ea s
  | .isz ea => Sys2Proof.Machine.execIsz ea s
  | .dsz ea => Sys2Proof.Machine.execDsz ea s
  | .lda ac ea => Sys2Proof.Machine.execLda ac ea s
  | .sta ac ea => Sys2Proof.Machine.execSta ac ea s
  | .lef ac ea => Sys2Proof.Machine.execLef ac ea s
  | .com o => Sys2Proof.Machine.execCom o s
  | .neg o => Sys2Proof.Machine.execNeg o s
  | .mov o => Sys2Proof.Machine.execMov o s
  | .inc o => Sys2Proof.Machine.execInc o s
  | .adc o => Sys2Proof.Machine.execAdc o s
  | .sub o => Sys2Proof.Machine.execSub o s
  | .add o => Sys2Proof.Machine.execAdd o s
  | .and o => Sys2Proof.Machine.execAnd o s
  | .adi n ac => Sys2Proof.Machine.execAdi n ac s
  | .sbi n ac => Sys2Proof.Machine.execSbi n ac s
  | .dad acs acd => Sys2Proof.Machine.execDad acs acd s
  | .dsb acs acd => Sys2Proof.Machine.execDsb acs acd s
  | .ior acs acd => Sys2Proof.Machine.execIor acs acd s
  | .xor acs acd => Sys2Proof.Machine.execXor acs acd s
  | .anc acs acd => Sys2Proof.Machine.execAnc acs acd s
  | .xch acs acd => Sys2Proof.Machine.execXch acs acd s
  | .sgt acs acd => Sys2Proof.Machine.execSgt acs acd s
  | .sge acs acd => Sys2Proof.Machine.execSge acs acd s
  | .lsh acs acd => Sys2Proof.Machine.execLsh acs acd s
  | .dlsh acs acd => Sys2Proof.Machine.execDlsh acs acd s
  | .hxl n ac => Sys2Proof.Machine.execHxl n ac s
  | .hxr n ac => Sys2Proof.Machine.execHxr n ac s
  | .dhxl n ac => Sys2Proof.Machine.execDhxl n ac s
  | .dhxr n ac => Sys2Proof.Machine.execDhxr n ac s
  | .bto acs acd => Sys2Proof.Machine.execBto acs acd s
  | .btz acs acd => Sys2Proof.Machine.execBtz acs acd s
  | .szb acs acd => Sys2Proof.Machine.execSzb acs acd s
  | .szbo acs acd => Sys2Proof.Machine.execSzbo acs acd s
  | .lob acs acd => Sys2Proof.Machine.execLob acs acd s
  | .lrb acs acd => Sys2Proof.Machine.execLrb acs acd s
  | .cob acs acd => Sys2Proof.Machine.execCob acs acd s
  | .ldb acs acd => Sys2Proof.Machine.execLdb acs acd s
  | .stb acs acd => Sys2Proof.Machine.execStb acs acd s
  | .psh acs acd => Sys2Proof.Machine.execPsh acs acd s
  | .pop acs acd => Sys2Proof.Machine.execPop acs acd s
  | .syc acs acd => Sys2Proof.Machine.execSyc acs acd s
  | .lmp => Sys2Proof.Machine.execLmp s
  | .pshr => Sys2Proof.Machine.execPshr s
  | .popb => Sys2Proof.Machine.execPopb s
  | .bam => Sys2Proof.Machine.execBam s
  | .popj => Sys2Proof.Machine.execPopj s
  | .rtn => Sys2Proof.Machine.execRtn s
  | .blm => Sys2Proof.Machine.execBlm s
  | .divx => Sys2Proof.Machine.execDivx s
  | .mul => Sys2Proof.Machine.execMul s
  | .muls => Sys2Proof.Machine.execMuls s
  | .div => Sys2Proof.Machine.execDiv s
  | .divs => Sys2Proof.Machine.execDivs s
  | .save imm => Sys2Proof.Machine.execSave imm s
  | .rstr => Sys2Proof.Machine.execRstr s
  | .xop acs acd op => Sys2Proof.Machine.execXop acs acd op s
  | .xop1 acs acd op => Sys2Proof.Machine.execXop1 acs acd op s
  | .ejmp ea => Sys2Proof.Machine.execEjmp ea s
  | .ejsr ea => Sys2Proof.Machine.execEjsr ea s
  | .eisz ea => Sys2Proof.Machine.execEisz ea s
  | .edsz ea => Sys2Proof.Machine.execEdsz ea s
  | .pshj ea => Sys2Proof.Machine.execPshj ea s
  | .elda ac ea => Sys2Proof.Machine.execElda ac ea s
  | .esta ac ea => Sys2Proof.Machine.execEsta ac ea s
  | .elef ac ea => Sys2Proof.Machine.execElef ac ea s
  | .eldb ac idx disp => Sys2Proof.Machine.execEldb ac idx disp s
  | .estb ac idx disp => Sys2Proof.Machine.execEstb ac idx disp s
  | .dspa ac ea => Sys2Proof.Machine.execDspa ac ea s
  | .clm acs acd => Sys2Proof.Machine.execClm acs acd s
  | .snb acs acd => Sys2Proof.Machine.execSnb acs acd s
  | .msp ac => Sys2Proof.Machine.execMsp ac s
  | .xct ac => Sys2Proof.Machine.execXct ac s
  | .hlv ac => Sys2Proof.Machine.execHlv ac s
  | .iori ac imm => Sys2Proof.Machine.execIori ac imm s
  | .xori ac imm => Sys2Proof.Machine.execXori ac imm s
  | .andi ac imm => Sys2Proof.Machine.execAndi ac imm s
  | .addi ac imm => Sys2Proof.Machine.execAddi ac imm s
  | .fas facs facd => Sys2Proof.Machine.execFas facs facd s
  | .fad facs facd => Sys2Proof.Machine.execFad facs facd s
  | .fss facs facd => Sys2Proof.Machine.execFss facs facd s
  | .fsd facs facd => Sys2Proof.Machine.execFsd facs facd s
  | .fms facs facd => Sys2Proof.Machine.execFms facs facd s
  | .fmd facs facd => Sys2Proof.Machine.execFmd facs facd s
  | .fds facs facd => Sys2Proof.Machine.execFds facs facd s
  | .fdd facs facd => Sys2Proof.Machine.execFdd facs facd s
  | .fams fac ea => Sys2Proof.Machine.execFams fac ea s
  | .famd fac ea => Sys2Proof.Machine.execFamd fac ea s
  | .fsms fac ea => Sys2Proof.Machine.execFsms fac ea s
  | .fsmd fac ea => Sys2Proof.Machine.execFsmd fac ea s
  | .fmms fac ea => Sys2Proof.Machine.execFmms fac ea s
  | .fmmd fac ea => Sys2Proof.Machine.execFmmd fac ea s
  | .fdms fac ea => Sys2Proof.Machine.execFdms fac ea s
  | .fdmd fac ea => Sys2Proof.Machine.execFdmd fac ea s
  | .flds fac ea => Sys2Proof.Machine.execFlds fac ea s
  | .fldd fac ea => Sys2Proof.Machine.execFldd fac ea s
  | .fsts fac ea => Sys2Proof.Machine.execFsts fac ea s
  | .fstd fac ea => Sys2Proof.Machine.execFstd fac ea s
  | .flmd fac ea => Sys2Proof.Machine.execFlmd fac ea s
  | .ffmd fac ea => Sys2Proof.Machine.execFfmd fac ea s
  | .flas ac fac => Sys2Proof.Machine.execFlas ac fac s
  | .ffas ac fac => Sys2Proof.Machine.execFfas ac fac s
  | .fnom fac => Sys2Proof.Machine.execFnom fac s
  | .frh fac => Sys2Proof.Machine.execFrh fac s
  | .fab fac => Sys2Proof.Machine.execFab fac s
  | .fneg fac => Sys2Proof.Machine.execFneg fac s
  | .fscal fac => Sys2Proof.Machine.execFscal fac s
  | .fexp fac => Sys2Proof.Machine.execFexp fac s
  | .fint fac => Sys2Proof.Machine.execFint fac s
  | .fhlv fac => Sys2Proof.Machine.execFhlv fac s
  | .fns => Sys2Proof.Machine.execFns s
  | .fsa => Sys2Proof.Machine.execFsa s
  | .fseq => Sys2Proof.Machine.execFseq s
  | .fsne => Sys2Proof.Machine.execFsne s
  | .fslt => Sys2Proof.Machine.execFslt s
  | .fsge => Sys2Proof.Machine.execFsge s
  | .fsle => Sys2Proof.Machine.execFsle s
  | .fsgt => Sys2Proof.Machine.execFsgt s
  | .fsnm => Sys2Proof.Machine.execFsnm s
  | .fsnd => Sys2Proof.Machine.execFsnd s
  | .fsnu => Sys2Proof.Machine.execFsnu s
  | .fsnud => Sys2Proof.Machine.execFsnud s
  | .fsno => Sys2Proof.Machine.execFsno s
  | .fsnod => Sys2Proof.Machine.execFsnod s
  | .fsnuo => Sys2Proof.Machine.execFsnuo s
  | .fsner => Sys2Proof.Machine.execFsner s
  | .fsst ea => Sys2Proof.Machine.execFsst ea s
  | .flst ea => Sys2Proof.Machine.execFlst ea s
  | .fte => Sys2Proof.Machine.execFte s
  | .ftd => Sys2Proof.Machine.execFtd s
  | .fcle => Sys2Proof.Machine.execFcle s
  | .fpsh => Sys2Proof.Machine.execFpsh s
  | .fpop => Sys2Proof.Machine.execFpop s
  | .fcmp facs facd => Sys2Proof.Machine.execFcmp facs facd s
  | .fmov facs facd => Sys2Proof.Machine.execFmov facs facd s
  | .cmv => Sys2Proof.Machine.execCmv s
  | .cmp => Sys2Proof.Machine.execCmp s
  | .ctr => Sys2Proof.Machine.execCtr s
  | .cmt => Sys2Proof.Machine.execCmt s
  | .nio ac f dev => Sys2Proof.Machine.execNio ac f dev s
  | .dia ac f dev => Sys2Proof.Machine.execDia ac f dev s
  | .doa ac f dev => Sys2Proof.Machine.execDoa ac f dev s
  | .dib ac f dev => Sys2Proof.Machine.execDib ac f dev s
  | .dob ac f dev => Sys2Proof.Machine.execDob ac f dev s
  | .dic ac f dev => Sys2Proof.Machine.execDic ac f dev s
  | .doc ac f dev => Sys2Proof.Machine.execDoc ac f dev s
  | .skp t dev => Sys2Proof.Machine.execSkp t dev s
  | .dis ac f dev => Sys2Proof.Machine.execDis ac f dev s
  | .inten ac => Sys2Proof.Machine.execInten ac s
  | .intds ac => Sys2Proof.Machine.execIntds ac s
  | .nioCpu ac f => Sys2Proof.Machine.execNioCpu ac f s
  | .reads ac f => Sys2Proof.Machine.execReads ac f s
  | .doaCpu ac f => Sys2Proof.Machine.execDoaCpu ac f s
  | .doapCpu ac => Sys2Proof.Machine.execDoapCpu ac s
  | .inta ac f => Sys2Proof.Machine.execInta ac f s
  | .vct stackChange table => Sys2Proof.Machine.execVct stackChange table s
  | .msko ac f => Sys2Proof.Machine.execMsko ac f s
  | .iorst ac f => Sys2Proof.Machine.execIorst ac f s
  | .halta ac f => Sys2Proof.Machine.execHalta ac f s
  | .skpCpu t => Sys2Proof.Machine.execSkpCpu t s
  | .disCpu ac f => Sys2Proof.Machine.execDisCpu ac f s
  | .diaMap ac f => Sys2Proof.Machine.execDiaMap ac f s
  | .doaMap ac f => Sys2Proof.Machine.execDoaMap ac f s
  | .dobMap ac f => Sys2Proof.Machine.execDobMap ac f s
  | .dicMap ac f => Sys2Proof.Machine.execDicMap ac f s
  | .docMap ac f => Sys2Proof.Machine.execDocMap ac f s
  | .niopMap ac => Sys2Proof.Machine.execNiopMap ac s
  | .nioMap ac f => Sys2Proof.Machine.execNioMap ac f s
  | .dibMap ac f => Sys2Proof.Machine.execDibMap ac f s
  | .disMap ac f => Sys2Proof.Machine.execDisMap ac f s
  | .diaTti ac f => Sys2Proof.Machine.execDiaTti ac f s
  | .doaTto ac f => Sys2Proof.Machine.execDoaTto ac f s
  | .doaRtc ac f => Sys2Proof.Machine.execDoaRtc ac f s
  | .diaPit ac f => Sys2Proof.Machine.execDiaPit ac f s
  | .doaPit ac f => Sys2Proof.Machine.execDoaPit ac f s
  | .doaErcc ac f => Sys2Proof.Machine.execDoaErcc ac f s
  | .diaErcc ac f => Sys2Proof.Machine.execDiaErcc ac f s
  | .dibErcc ac f => Sys2Proof.Machine.execDibErcc ac f s
  | .diaApl ac f => Sys2Proof.Machine.execDiaApl ac f s
  | .doaApl ac f => Sys2Proof.Machine.execDoaApl ac f s

end Sys2Proof.Machine
end

