-- ==== Sys2Proof/Machine/Events.lean ====
section
/-!
DEFINITION. What the host does to the machine between two instructions (46_io R560): the events of the devices on the
processor board, memory errors, the data channel (46_io R516, 47_map R590), power (60_exceptions R658 to R661), the front
panel switches, program load (70_reset R700 to R704) and the virtual console as far as it changes machine state (70_reset
R710 to R719; log 38).
-/

namespace Sys2Proof.Machine

/-! ## Shared -/

/-- Any value in every word of physical memory below `n`, each with its check code, whatever the mode of the checking (log
45). -/
def fillMemory : Nat → M Unit
  | 0 => pure ()
  | n + 1 => do
    let w ← drawFree 16
    modify (storeWord n w)
    fillMemory n

/-- The memory part of a self-test or memory test destroys what memory held (70_reset R680, R718). -/
def destroyMemory : M Unit := do
  let s ← get
  fillMemory s.cfg.boards.words

/-- Any values in the four floating-point accumulators and in FPSR. -/
def freeFp : M Unit := do
  let x0 ← drawFree 64
  let x1 ← drawFree 64
  let x2 ← drawFree 64
  let x3 ← drawFree 64
  let w1 ← drawFree 16
  let w2 ← drawFree 16
  modify fun s => { s with fpac := ⟨x0, x1, x2, x3⟩, fpsr := Fpsr.ofWords w1 w2 }

/-- The processor runs the user program: the console interrupts are cleared and the run light is on (70_reset R710, R717). -/
def resume (s : State) : State := { cpuCommand .pulse s with runState := .running, runLight := true, xct := none }

/-- The power is on. -/
def powered (s : State) : Bool := decide (s.runState ≠ .off)

/-- The processor is in the virtual console. -/
def inConsole (s : State) : Bool := decide (s.runState = .console)

/-- The console firmware, not the program, has the terminal: while the console runs (70_reset R710), and no longer once a
program load has begun (R700), so that what arrives then reaches TTI (log 38). With the power off nothing does. -/
def consoleHasTerminal (s : State) : Bool :=
  match s.runState with
  | .running => false
  | .halted => false
  | .console => true
  | .testError _ => true
  | .loadPio _ _ => false
  | .loadDch _ => false
  | .off => true

/-! ## Devices on the processor board -/

/-- A character arrives at the receiver; while Done is still one it overruns (46_io R545). -/
def ttiArrival (c : BitVec 8) (t : Tti) : Tti :=
  { t with rbuf := c, busy := false, done := true, overrun := t.overrun || t.done }

/-- The transmitter has sent its character (46_io R547). -/
def ttoSentEvent (t : Tto) : Tto := { t with busy := false, done := true }

/-- A tick of the real-time clock: of effect only while Busy is one (46_io R549). -/
def rtcTickEvent (t : Rtc) : Rtc := if t.busy then { t with busy := false, done := true } else t

/-- A tick of the interval timer while it counts: at overflow Done is set and the count starts again (46_io R551). -/
def pitTickEvent (t : Pit) : Pit :=
  if t.busy then
    if t.cnt + 1 = 0 then { t with cnt := t.icr, done := true } else { t with cnt := t.cnt + 1 }
  else t

/-- A word of installed memory goes bad, in the place of an error it may have had (46_io R554, R557; log 45). -/
def memErrorEvent (addr : BitVec 20) (data : Word) (check : BitVec 6) : M Unit := do
  let s ← get
  if addr.toNat < s.cfg.boards.words then putError addr data check else pure ()

/-- The corrected words rewritten. -/
def mendAll (fs : List MemFault) (m : List Host.Cell) : List Host.Cell :=
  fs.foldl (fun m f => Memory.writeWord m f.addr.toNat (mendedWord m f)) m

/-- A refresh corrects what it can, where sniffing is on, and records nothing (46_io R554, R555). -/
def sniffEvent (s : State) : State :=
  if erccSniffs s.ercc then
    { s with
      mem := mendAll (s.memFaults.filter fun f => corrects f.code) s.mem
      memFaults := s.memFaults.filter fun f => !corrects f.code }
  else s

/-- A controller is installed or replaced; the codes of the processor board's own devices stand, and a device that can be
moved takes only a code it may have (46_io R500, R517; log 35). -/
def installExt (d : ExtDevice) (s : State) : State :=
  if isBoard d.code || decide (d.code = devCpu) || decide (d.code = 0) || !codeFits d then s
  else { s with ext := d :: s.ext.filter fun x => decide (x.code ≠ d.code) }

/-! ## Program load (70_reset R700 to R704) -/

/-- Where a programmed-I/O load begins to store. -/
def loadBase : Nat := 0o100

/-- The location a data channel load waits on. -/
def dchLoadLoc : Addr := 0o377

/-- The largest number of words a programmed-I/O load stores: 32 kilobytes. -/
def loadLimit : Nat := 16384

/-- The bytes after the leading nulls and the synchronization byte. -/
def afterSync : List (BitVec 8) → List (BitVec 8)
  | [] => []
  | b :: bs => if b = 0 then afterSync bs else bs

/-- Pairs of bytes as words, the odd byte the left half. -/
def pairWords : List (BitVec 8) → List Word
  | b1 :: b2 :: bs => wordOfBytes b1 b2 :: pairWords bs
  | _ => []

/-- Write words at consecutive physical locations. -/
def writePhys : Nat → List Word → M Unit
  | _, [] => pure ()
  | pa, w :: ws => do
    physWrite pa w
    writePhys (pa + 1) ws

/-- The state a loaded program gets control in: the device code in VCR and, shifted left one bit, in AC0; VCR bits 0-9, AC1 to
AC3, carry and the floating-point state any value (70_reset R703). -/
def loadDone (code : DevCode) (start : Addr) : M Unit := do
  let v ← drawFree 10
  let a1 ← drawFree 16
  let a2 ← drawFree 16
  let a3 ← drawFree 16
  let c ← drawBit
  freeFp
  modify fun s =>
    { resume s with
      vcr := v ++ code, ac := ⟨code.setWidth 16 <<< 1, a1, a2, a3⟩, cry := c, pc := start }

/-- The words the bytes of a load give to be stored, and how many the count announces; none before the count is there
(70_reset R701). -/
def loadWords (storesCount : Bool) (bytes : List (BitVec 8)) : Option (List Word × Nat) :=
  match pairWords (afterSync bytes) with
  | [] => none
  | w1 :: ws =>
    let n := (-w1).toNat
    let wanted := min (if storesCount then n else n - 1) loadLimit
    some ((if storesCount then w1 :: ws else ws).take wanted, wanted)

/-- The next bytes of a programmed-I/O load: the words they complete are stored, each once, and with the last of the words
the count announces the program gets control (70_reset R701; log 37). -/
def loadBytesEvent (code : DevCode) (got more : List (BitVec 8)) : M Unit := do
  modify fun s => { s with runState := .loadPio code (got ++ more) }
  let s ← get
  match loadWords s.cfg.plStoresCount (got ++ more) with
  | none => pure ()
  | some (ws, wanted) => do
    let stored := ((loadWords s.cfg.plStoresCount got).map fun p => p.1.length).getD 0
    writePhys (loadBase + stored) (ws.drop stored)
    if wanted ≤ ws.length then loadDone code s.cfg.plStart else pure ()

/-- A program load starts in the run state `r`, with an I/O reset and ION zero: stated for the data channel load (70_reset
R702), and of every load by the state R703 and 10_state R96 give (log 37). Device 0 re-enters the console, and so does the
reserved code 77 (R700). The program counter stands until the loaded program gets control, so that BREAK during a load
shows the one from before it, and not the 377 a data channel load is said to loop at (R702; log 37). -/
def startLoad (code : DevCode) (r : RunState) (s : State) : State :=
  if code = 0 || code = devCpu then enterConsole s
  else { ioReset (cpuCommand .pulse s) with ion := false, ionHold := .none, runState := r, xct := none }

/-- A programmed-I/O load starts (70_reset R701). -/
def startLoadPio (code : DevCode) (s : State) : State := startLoad code (.loadPio code []) s

/-- A data channel load starts (70_reset R702). -/
def startLoadDch (code : DevCode) (s : State) : State := startLoad code (.loadDch code) s

/-- The load the APL register selects (70_reset R704). -/
def startAutoLoad (s : State) : State :=
  if s.cfg.aplDch then startLoadDch s.cfg.aplCode s else startLoadPio s.cfg.aplCode s

/-! ## The data channel -/

/-- A transfer writes location 377 (70_reset R702). -/
def endsLoad (s : State) (r : DchRequest) : Bool :=
  match r with
  | .write map a _ => decide (dchPhys s map a = dchLoadLoc.toNat)
  | .read _ _ => false

/-- A data channel transfer between two steps; the write of location 377 ends a data channel load (46_io R516, 70_reset
R702). -/
def dchEvent (r : DchRequest) : M Unit := do
  let s ← get
  dchTransfer r
  match s.runState with
  | .loadDch code => if endsLoad s r then loadDone code dchLoadLoc else pure ()
  | _ => pure ()

/-! ## The self-test -/

/-- A self-test displays the first of the errors that are left and waits for the BREAK key; with none left the console
prompts (70_reset R704, R718; log 38). -/
def nextError (errs : List SelfTestError) (s : State) : State :=
  match errs with
  | [] => { s with runState := .console }
  | e :: rest => { s with runState := .testError rest, outputs := .selfTestFlag e :: s.outputs }

/-- The self-test of power-up and of control-G: memory is destroyed, and the errors the host has announced are displayed, one
after another (70_reset R680, R718; log 38). -/
def selfTest : M Unit := do
  destroyMemory
  modify fun s => nextError s.testErrors { s with testErrors := [] }

/-! ## Power and the front panel -/

/-- Everything but the host's own and, where the batteries held it, memory is as `State.reset` says (70_reset R680, R681,
R683); the errors a self-test will find are the host's. -/
def powerUp (s : State) : State :=
  { State.reset with
    cfg := s.cfg, testErrors := s.testErrors, inputs := s.inputs, outputs := s.outputs, freeIdx := s.freeIdx,
    ext := s.ext.map fun x => { x with busy := false, done := false } }

/-- Power returns with memory held: the power-fail interrupt is cleared, CPUSTAT says that memory survived; a locked machine
executes the word at location 0, an unlocked one waits in the console. Accumulators, carry, floating-point state and, in the
console, the program counter are any value (60_exceptions R660, 70_reset R683). -/
def autoRestart : M Unit := do
  modify fun s => { powerUp s with
    mem := s.mem, memFaults := s.memFaults, survived := true, con := ⟨false, false, false, false, false, false⟩ }
  let a0 ← drawFree 16
  let a1 ← drawFree 16
  let a2 ← drawFree 16
  let a3 ← drawFree 16
  let c ← drawBit
  let p ← drawFree 15
  freeFp
  modify fun s =>
    let t := { s with ac := ⟨a0, a1, a2, a3⟩, cry := c }
    if s.cfg.locked then { resume t with pc := 0 } else { enterConsole t with pc := p }

/-- Power returns after an outage: with battery backup and memory held an automatic restart, else the power-up response
(60_exceptions R660). A signal that recedes with no loss of power does nothing, and PF stays one: the spec gives the case no
event (46_io R559, 60_exceptions R660; log 39). -/
def powerRestoredEvent (memoryHeld : Bool) : M Unit := do
  let s ← get
  if s.runState = .off then
    if s.cfg.battery && memoryHeld then autoRestart else set (powerUp s)
  else pure ()

/-- The processor executes: the user program or a program load. -/
def executing (s : State) : Bool :=
  match s.runState with
  | .running => true
  | .loadPio _ _ => true
  | .loadDch _ => true
  | .halted => false
  | .console => false
  | .testError _ => false
  | .off => false

/-- The BREAK key of the system console: the console is entered unless the key is disabled or the console locked (70_reset
R711). After an error flag of a self-test it continues instead, to the next flag or the prompt, locked or not, since R704
gives it of a locked panel too, and whatever the jumper of the key, of which R704 and R718 say nothing; the BRK bit of
CPUSTAT stands (log 38). -/
def breakEvent (s : State) : State :=
  match s.runState with
  | .testError rest => nextError rest s
  | _ =>
    if executing s && s.cfg.breakEnabled && !s.cfg.locked then
      enterConsole { s with con := { s.con with brk := true } }
    else s

/-- The RESET switch: with the console unlocked, an I/O reset, the console, and the program counter lost (70_reset R682).
Pressed after power-up and before the console starts, where the manual does not speak of it, it does the same: there is no
self-test, so that memory is not destroyed, and the power-up bit stays one in the console (70_reset R680; log 38). -/
def resetSwitchEvent : M Unit := do
  let s ← get
  if powered s && !s.cfg.locked then
    let p ← drawFree 15
    modify fun s => { enterConsole (ioReset s) with ion := false, ionHold := .none, pc := p }
  else pure ()

/-- The console starts after power-up: the power-up bit falls and the self-test destroys memory. Without an error a locked
machine with an automatic load device loads from it; after one the console keeps control, and the BREAK key brings its prompt
(70_reset R680, R704). -/
def powerUpConsole : M Unit := do
  modify fun s => enterConsole (cpuCommand .pulse s)
  selfTest
  modify fun s => if inConsole s && s.cfg.locked && decide (s.cfg.aplCode ≠ 0) then startAutoLoad s else s

/-! ## The virtual console -/

/-- `expr/`: a memory cell replaced, under the current setting of the user MAP; an invalid or protected page stands (70_reset
R713; log 38). -/
def depositEvent (a : Addr) (v : Word) : M Unit := do
  let s ← get
  if s.mapOn then
    if (userEntry s a).invalid || writeProtected s (userEntry s a) then pure ()
    else physWrite (entryPhys (userEntry s a) a) v
  else physWrite (unmappedPhys s a) v

/-- `U`: the MAP status typed into cell 11 takes effect, and the MAP goes on with a user map or off (47_map R602). A waiting
user enable falls, whichever way the MAP goes, and a pending single cycle stands: the manual speaks of neither (log 38). -/
def selectMapEvent (status : Option Word) (user : Option AcNo) (s : State) : State :=
  let m :=
    match status with
    | some v => loadStatus s.ms v
    | none => s.ms
  match user with
  | some u => { s with ms := { m with nme := u }, mapOn := true, mapPending := false }
  | none => { s with ms := m, mapOn := false, mapPending := false }

/-- What the operator does in the console (70_reset R712 to R718, 47_map R602). After the self-test of control-G the console
stays in control, with the panel locked too: of a load after the self-test R704 speaks at power-up only. Which data channel
map is the selected one, whose entries `nC` shows and alters, no rule says: the action names the map, any of the four
(47_map R602, 70_reset R714; log 38). -/
def consoleEvent (a : ConsoleAction) : M Unit :=
  match a with
  | .setAc ac v => setAc ac v
  | .setPc p => setPc p
  | .setCarry c => setCry c
  | .setVcr v => modify fun s => { s with vcr := v }
  | .setFpsr v => modify fun s => { s with fpsr := Fpsr.ofWords v (Fpsr.word2 s.fpsr) }
  | .setFppc p => modifyFpsr fun f => { f with fppc := p }
  | .setFpac fac v => setFpac fac v
  | .deposit p v => depositEvent p v
  | .setUserEntry page e => modify fun s =>
      if s.mapOn then { s with umap := s.umap.set s.ms.nme (PageMap.setEntry (s.umap.get s.ms.nme) page e) } else s
  | .setDchEntry map page e => modify fun s =>
      if s.mapOn then { s with dmap := s.dmap.set map (PageMap.setEntry (s.dmap.get map) page e) } else s
  | .selectMap status user => modify (selectMapEvent status user)
  | .ioReset => modify fun s => { ioReset s with ion := false, ionHold := .none }
  | .selfTest => selfTest
  | .memoryTest => destroyMemory
  | .proceed => modify resume
  | .runAt p => modify fun s => { resume s with pc := p }
  | .singleStep => modify fun s => { resume s with con := ⟨false, false, false, false, true, false⟩ }
  | .loadPio code => modify (startLoadPio code)
  | .loadDch code => modify (startLoadDch code)

/-! ## Every input -/

/-- A change of the state while the power is on. -/
def whilePowered (g : State → State) : M Unit := modify fun s => if powered s then g s else s

/-- One host input other than `cpu` (46_io R560). What sets the receiver's Break and Parity Error flags the manual does not
say: an input of its own sets each, and nothing else (46_io R545; log 56). The PR LOAD switch acts whenever the power is on,
with the console locked too: the manual speaks of it only once the console has been entered (70_reset R711; log 38). Pressed
after power-up and before the console starts, it therefore loads with no self-test, so that memory is not destroyed and its
errors not reported, and the power-up bit falls only as a load starts (70_reset R680; log 38). -/
def hostEvent (i : HostInput) : M Unit :=
  match i with
  | .cpu => pure ()
  | .ttiChar c => modify fun s => if consoleHasTerminal s then s else { s with tti := ttiArrival c s.tti }
  | .ttiBreak => modify fun s => if consoleHasTerminal s then s else { s with tti := { s.tti with brk := true } }
  | .ttiParityError => modify fun s => if consoleHasTerminal s then s else { s with tti := { s.tti with parity := true } }
  | .ttoSent => whilePowered fun s => { s with tto := ttoSentEvent s.tto }
  | .rtcTick => whilePowered fun s => { s with rtc := rtcTickEvent s.rtc }
  | .pitTick => whilePowered fun s => { s with pit := pitTickEvent s.pit }
  | .powerFailing => whilePowered fun s => { s with pf := true }
  | .powerLost => modify fun s => { s with runState := .off, runLight := false, xct := none }
  | .powerRestored memoryHeld => powerRestoredEvent memoryHeld
  | .breakKey => modify breakEvent
  | .resetSwitch => resetSwitchEvent
  | .prLoadSwitch =>
    modify fun s =>
      if powered s then startAutoLoad (enterConsole { s with con := { s.con with pl := true } }) else s
  | .selfTestError e => modify fun s => { s with testErrors := s.testErrors ++ [e] }
  | .memError addr data check => do
    let s ← get
    if powered s then memErrorEvent addr data check else pure ()
  | .sniffed => whilePowered sniffEvent
  | .extDevice d => modify (installExt d)
  | .dch r => do
    let s ← get
    if powered s then dchEvent r else pure ()
  | .dchInside due => whilePowered fun s => { s with dchDue := due }
  | .loadBytes bytes => do
    let s ← get
    match s.runState with
    | .loadPio code got => loadBytesEvent code got bytes
    | _ => pure ()
  | .console a => do
    let s ← get
    if inConsole s then consoleEvent a else pure ()

end Sys2Proof.Machine
end

