-- ==== Sys2Proof/Machine/Cycle.lean ====
section
/-!
DEFINITION. One step of the processor: interrupt entry (60_exceptions R623, R626), fetch, decode and execution (00_scope R15,
45_program_flow R461), the hold of interrupts after ION rises (46_io R522), single stepping (70_reset R716), and the states
in which no instruction is executed (60_exceptions R661).
-/

namespace Sys2Proof.Machine

/-! ## Interrupts -/

/-- An interrupt is taken at this interruption point (60_exceptions R623; 47_map R598, R601; 70_reset R716). -/
def interruptDue (s : State) : Bool :=
  irq s && s.ion && decide (s.ionHold = .none) && !s.mapPending && !s.scPending && !s.con.trp

/-- Interrupt entry (60_exceptions R626): ION falls, the user map goes off and UM records it, location 0 receives the program
counter, and control goes indirect through location 1. An XCT in progress will start again from the XCT. -/
def interruptEntry : M Unit := do
  modify fun s => { s with ion := false, ms := { s.ms with um := s.mapOn }, mapOn := false, xct := none }
  let s ← get
  memWrite 0 (joinWord false s.pc)
  let t ← indirectAt 1
  setPc t

/-! ## Fetch and execution -/

/-- The first word of the next instruction: the one XCT took, else the word at the program counter (45_program_flow R461,
R480). -/
def firstWord : M Word := do
  let s ← get
  match s.xct with
  | some w =>
    set { s with xct := none }
    pure w
  | none => memRead s.pc

/-- Both words of the next instruction. -/
def fetchWords : M (Word × Word) := do
  let w ← firstWord
  let w2 ← secondWord w
  pure (w, w2)

/-- The instructions of one CPU cycle, after which the hold lasts once more (46_io R522). -/
def oneCycle (i : Instr) : Bool :=
  match i with
  | .adc _ | .add _ | .and _ | .com _ | .inc _ | .mov _ | .neg _ | .sub _ => true
  | .adi _ _ | .anc _ _ | .sbi _ _ | .sge _ _ | .sgt _ _ => true
  | _ => false

/-- The hold after an instruction that was executed under it (46_io R522). -/
def holdAfter (one : Bool) (h : IonHold) : IonHold :=
  match h with
  | .held => if one then .last else .none
  | .none => .none
  | .last => .none

/-- The state with the hold counted down for an instruction; an instruction that raises ION sets it anew. -/
def countHold (one : Bool) (s : State) : State := { s with ionHold := holdAfter one s.ionHold }

/-- An instruction whose word stands in `held`, the one XCT took, or came from memory: BLM and LMP keep a word XCT took
(45_program_flow R480). -/
def execHeld (held : Option Word) (i : Instr) (s : State) : Host.Outcome State Fault Refusal :=
  match held, i with
  | some w, .blm => execBlmUnder w s
  | some w, .lmp => execLmpUnder w s
  | _, i => exec i s

/-- The instruction at the program counter, fetched, decoded and executed (45_program_flow R461). -/
def runNext (s : State) : Host.Outcome State Fault Refusal :=
  match fetchWords s with
  | .error e s1 => finish (.error e (countHold false s1))
  | .ok ws s1 =>
    match decodeWords (lefMode s) ws.1 ws.2 with
    | some i => execHeld s.xct i (countHold (oneCycle i) s1)
    | none => undefinedWord (countHold false s1)

/-! ## Single step -/

/-- The map went off, or a pending enable was lost, between two states: of the interruptible instructions only a MAP
protection fault does that (47_map R582). -/
def mapLost (s t : State) : Bool := !t.mapOn && (s.mapOn || (s.mapPending && !t.mapPending))

/-- An interruptible instruction, or an XCT, is not finished: its word stands at the program counter again, or XCT keeps it
(42_data_movement R306, 45_program_flow R480). -/
def unfinished (s t : State) : Bool :=
  t.xct.isSome ||
    (match fetchWords s with
     | .ok ws _ =>
       (match decodeWords (lefMode s) ws.1 ws.2 with
        | some .bam | some .blm | some .cmv | some .cmp | some .ctr | some .cmt | some .lmp =>
          decide (t.pc = s.pc) && !mapLost s t
        | _ => false)
     | .error _ _ => false)

/-- After an instruction executed in single-step mode the console is entered again (70_reset R716). A HALT stepped with Halt
Dispatch off stays halted, its console interrupt pending: the spec does not say which of the two wins (60_exceptions R666; log
52). -/
def afterStep (s : State) (r : Host.Outcome State Fault Refusal) : Host.Outcome State Fault Refusal :=
  match r with
  | .next t => if s.con.trp && decide (t.runState = .running) && !unfinished s t then .next (enterConsole t) else .next t
  | .fault f => .fault f
  | .refused f => .refused f

/-- One step of a running processor. -/
def runStep (s : State) : Host.Outcome State Fault Refusal :=
  if interruptDue s then runInstr interruptEntry s else afterStep s (runNext s)

/-! ## The processor's step -/

/-- The processor's step: it executes while running; halted after power-up it enters the console; else it does nothing
(60_exceptions R661, 70_reset R680). -/
def cpuStep (s : State) : Host.Outcome State Fault Refusal :=
  match s.runState with
  | .running => runStep s
  | .halted => if s.con.pup then runInstr powerUpConsole s else .next s
  | .console => .next s
  | .testError _ => .next s
  | .loadPio _ _ => .next s
  | .loadDch _ => .next s
  | .off => .next s

/-- One step of the machine: the next host input, or the processor's step where there is none or the input is `cpu` (46_io
R560; log 16). -/
def machineStep (s : State) : Host.Outcome State Fault Refusal :=
  match s.inputs with
  | [] => cpuStep s
  | .cpu :: rest => cpuStep { s with inputs := rest }
  | e :: rest => runInstr (hostEvent e) { s with inputs := rest }

end Sys2Proof.Machine
end

