-- ==== Sys2Proof/Machine/Step.lean ====
section
/-!
DEFINITION. The step of the machine (00_scope R15), and the placing of one instruction where the next step fetches it.
-/

namespace Sys2Proof.Machine

/-- One step: an instruction, one iteration of an interruptible instruction, an interrupt entry, or one host input. -/
def step (s : State) : Host.Outcome State Fault Refusal := machineStep s

namespace State

/-- The physical word the processor fetches from at a logical address. -/
def fetchPhys (s : State) (a : Addr) : Nat :=
  if s.mapOn then entryPhys (userEntry s a) a else unmappedPhys s a

/-- The machine about to execute: running, no XCT in progress, no host input or data channel transfer waiting, no interrupt
due. -/
def readyToFetch (s : State) : State :=
  let t := { s with runState := .running, xct := none, inputs := [], dchDue := [] }
  if interruptDue t then { t with ionHold := .last } else t

/-- The state in which the next step fetches and runs the instruction given as a number: its words stand at the program
counter (log 13). -/
def withFetchWord (s : State) (nbits w : Nat) : State :=
  let ws := tableWords (w % 2 ^ nbits)
  let first := s.fetchPhys s.pc
  let second := s.fetchPhys (s.pc + 1)
  { s.readyToFetch with
    mem := Memory.writeWord (Memory.writeWord s.mem first ws.1) second ws.2
    memFaults := dropFault (dropFault s.memFaults first) second }

end State

end Sys2Proof.Machine
end

