-- ==== Sys2Proof/Machine/View.lean ====
section
/-!
DEFINITION. How claims read the machine: the word at a logical address in supervisor mode, the effective address of an address
field there, the stack as R431 and R432 of 44_stack describe it, and where memory is the same in two states. Each is plain
data; none is used by the machine itself.
-/

namespace Sys2Proof.Machine

/-! ## Fault codes (46_io R557) -/

/-- The fault codes of data bits 0 to 15, as the table prints them (46_io R557). -/
def dataCodes : List (BitVec 6) :=
  [0b011100, 0b110100, 0b110010, 0b101010, 0b011010, 0b100110, 0b010110, 0b001110,
    0b110001, 0b101001, 0b011001, 0b100101, 0b010101, 0b001101, 0b100011, 0b001011]

/-- The fault codes of check bits 0 to 5 (46_io R557). -/
def checkCodes : List (BitVec 6) := [0b100000, 0b010000, 0b001000, 0b000100, 0b000010, 0b000001]

/-- The fault codes of multiple bit errors (46_io R557). -/
def manyCodes : List (BitVec 6) :=
  [0b000111, 0b010011, 0b011111, 0b101100, 0b101111, 0b110111, 0b111011, 0b111101]

/-- The fault code of an error in these bits of a word and of its check code is one the table gives: the row of a single bit;
for two bits a row for two bits, or one of the two that are lost (46_io R557). -/
def FaultCodeRight (data : Word) (check code : BitVec 6) : Prop :=
  (∀ n : Nat, n < 16 → data = 0x8000#16 >>> n → check = 0 → code = dataCodes.getD n 0) ∧
  (∀ n : Nat, n < 6 → data = 0 → check = 0x20#6 >>> n → code = checkCodes.getD n 0) ∧
  ∀ i j : Nat, i < j → j < 22 → data ++ check = (0x200000#22 >>> i) ||| (0x200000#22 >>> j) →
    code ∉ 0 :: dataCodes ++ checkCodes ++ manyCodes

/-! ## Supervisor mode -/

/-- Memory is plain storage of the processor's alone: no word of it is in error, and no data channel transfer is due (46_io
R554, 20_memory R146). -/
def Quiet (s : State) : Prop := s.memFaults = [] ∧ s.dchDue = []

/-- Supervisor mode: the MAP off, no user enable and no single cycle waiting, page 31 at its own place, so that a logical
address is the physical one (47_map R575), and memory quiet. -/
def Supervisor (s : State) : Prop :=
  s.mapOn = false ∧ s.mapPending = false ∧ s.scPending = false ∧ s.p31 = Config.page31Reset ∧ Quiet s

namespace State

/-- The word at a logical address in supervisor mode. -/
def wordAt (s : State) (a : Addr) : Word := Memory.readWord s.mem a.toNat

/-- The state with the word at a logical address replaced, in supervisor mode. -/
def withWord (s : State) (a : Addr) (v : Word) : State := { s with mem := Memory.writeWord s.mem a.toNat v }

/-- The state with an accumulator replaced. -/
def withAc (s : State) (i : AcNo) (v : Word) : State := { s with ac := s.ac.set i v }

/-- The state with a floating-point accumulator replaced. -/
def withFpac (s : State) (i : AcNo) (v : QWord) : State := { s with fpac := s.fpac.set i v }

/-- The state with the program counter `n` words on. -/
def next (s : State) (n : Nat) : State := { s with pc := s.pc + BitVec.ofNat 15 n }

/-- The state with the program counter past an instruction of `n` words and, where `c` holds, past one word more. -/
def nextSkip (s : State) (n : Nat) (c : Bool) : State := s.next (if c then n + 1 else n)

/-- The state with the program counter at `a`. -/
def goto (s : State) (a : Addr) : State := { s with pc := a }

/-! ## Effective addresses (20_memory R112 to R115) -/

/-- The end of an indirection chain that starts with the pointer word at `a`, if one of the first `n` words ends it. -/
def follow (s : State) : Nat → Addr → Option Addr
  | 0, _ => none
  | n + 1, a => if (s.wordAt a).msb then s.follow n ((s.wordAt a).setWidth 15) else some ((s.wordAt a).setWidth 15)

/-- `Indirect(a)` in supervisor mode, where its chain ends. -/
def pointerEnd (s : State) (a : Addr) : Option Addr := s.follow Config.chainFuel a

/-- `Resolve(w)` in supervisor mode, where its chain ends (45_program_flow R476). -/
def resolved (s : State) (ind : Bool) (ia : Addr) : Option Addr := if ind then s.pointerEnd ia else some ia

/-- The effective address of a short field in supervisor mode. -/
def shortAt (s : State) (ea : ShortAddr) : Option Addr := s.resolved ea.ind (shortIa s ea)

/-- The effective address of an extended field in supervisor mode. -/
def extAt (s : State) (ea : ExtAddr) : Option Addr := s.resolved ea.ind (extIa s ea)

/-- The address a word names in supervisor mode, bit 0 its indirect bit. -/
def wordTarget (s : State) (w : Word) : Option Addr := s.resolved w.msb (w.setWidth 15)

/-! ## Bytes (20_memory R120, R121) -/

/-- The byte a byte pointer addresses in supervisor mode. -/
def byteAt (s : State) (bp : Word) : BitVec 8 := byteOf (s.wordAt (bpWord bp)) (bpRight bp)

/-- The state with that byte replaced. -/
def withByteAt (s : State) (bp : Word) (b : BitVec 8) : State :=
  s.withWord (bpWord bp) (withByte (s.wordAt (bpWord bp)) (bpRight bp) b)

/-! ## The stack (44_stack R431 to R434) -/

/-- After `Push(v)`. -/
def pushed (s : State) (v : Word) : State :=
  (s.withWord ((s.wordAt spLoc + 1).setWidth 15) v).withWord spLoc (s.wordAt spLoc + 1)

/-- After pushing words one after the other. -/
def pushedAll (s : State) : List Word → State
  | [] => s
  | v :: vs => (s.pushed v).pushedAll vs

/-- The word `Pop()` gives. -/
def top (s : State) : Word := s.wordAt ((s.wordAt spLoc).setWidth 15)

/-- After `Pop()`. -/
def dropped (s : State) : State := s.withWord spLoc (s.wordAt spLoc - 1)

/-- The stack pointer is beyond the stack limit. -/
def overflows (s : State) : Bool := decide ((s.wordAt slLoc).toNat < (s.wordAt spLoc).toNat)

/-- The five words of a return block (44_stack R432). -/
def returnBlock (s : State) (ret : Addr) : List Word :=
  [s.ac.get 0, s.ac.get 1, s.ac.get 2, s.ac.get 3, joinWord s.cry ret]

/-- After `PushBlock(ret)`. -/
def withBlock (s : State) (ret : Addr) : State := s.pushedAll (s.returnBlock ret)

/-- The `n` addresses above the stack pointer. -/
def stackRoom (s : State) (n : Nat) : List Addr :=
  (List.range n).map fun k => (s.wordAt spLoc).setWidth 15 + BitVec.ofNat 15 (k + 1)

/-- After popping an accumulator. -/
def popInto (s : State) (i : AcNo) : State := s.dropped.withAc i s.top

/-- After popping a return block: carry, then AC3 to AC0 (44_stack R443). -/
def blockPopped (s : State) : State :=
  (((({ s.dropped with cry := s.top.msb }.popInto 3).popInto 2).popInto 1).popInto 0)

/-- After popping `n` accumulators from `i` down (44_stack R441). -/
def popDown (s : State) : Nat → AcNo → State
  | 0, _ => s
  | n + 1, i => (s.popInto i).popDown n (i - 1)

/-- After the first actions of a stack fault: bit 0 of the pointer cleared, bit 0 of the limit set, a return block pushed
(44_stack R435). -/
def stackFaulted (s : State) (ret : Addr) : State :=
  ((s.withWord spLoc (s.wordAt spLoc &&& 0o077777)).withWord slLoc
    ((s.withWord spLoc (s.wordAt spLoc &&& 0o077777)).wordAt slLoc ||| 0o100000)).withBlock ret

/-- After words are stored from address `a + 1` up. -/
def storedAbove (s : State) (a : Addr) : List Word → State
  | [] => s
  | w :: ws => (s.withWord (a + 1) w).storedAbove (a + 1) ws

/-! ## Bits and pairs -/

/-- The word address of a bit pointer in supervisor mode (20_memory R125). -/
def bitPlace (s : State) (acs acd : AcNo) : Option Addr :=
  if acs = acd then some (bitOffset (s.ac.get acd))
  else (s.wordTarget (s.ac.get acs)).map fun base => base + bitOffset (s.ac.get acd)

/-- The 32 bits of an accumulator and the next one (41_fixed_point R236). -/
def pair (s : State) (i : AcNo) : DWord := s.ac.get i ++ s.ac.get (i + 1)

/-- The state with an accumulator pair replaced. -/
def withPair (s : State) (i : AcNo) (v : DWord) : State :=
  (s.withAc i (v.extractLsb' 16 16)).withAc (i + 1) (v.extractLsb' 0 16)

/-! ## Floating point -/

/-- A value in an accumulator, with its Z and N (43_floating_point R337). -/
def floatSet (s : State) (fac : AcNo) (x : QWord) : State :=
  { s.withFpac fac x with fpsr := Fpsr.withZN s.fpsr x }

/-- Error bits set by the instruction at the program counter (43_floating_point R335). -/
def floatRaised (s : State) (e : FpErr) : State := { s with fpsr := Fpsr.withErr s.fpsr e s.pc }

/-- An arithmetic result with its exponent errors (43_floating_point R336). -/
def floatDone (s : State) (fac : AcNo) (r : FpResult) : State :=
  (s.floatRaised ⟨r.ovf, r.unf, false, false⟩).floatSet fac r.value

/-- The state with trap enable off, as a floating-point fault leaves it (43_floating_point R340). -/
def trapOff (s : State) : State := { s with fpsr := { s.fpsr with te := false } }

/-- Equal but for memory and the counter of free values. -/
def SameButMemory (s t : State) : Prop := { t with mem := s.mem, freeIdx := s.freeIdx } = s

/-! ## MAP protection faults (47_map R582) -/

/-- The state a MAP protection fault enters its sequence with: the kind recorded, the map off. -/
def faultKind (s : State) (k : MapFaultKind) : State :=
  { s with
    ms := { s.ms with fIo := decide (k = .io), fWp := decide (k = .write), fInd := decide (k = .indirect) },
    mapOn := false, mapPending := false }

/-! ## Translation and protection (47_map R575 to R578) -/

/-- A logical address is mapped to a valid page of installed memory. -/
def mapped (s : State) (a : Addr) : Bool :=
  s.mapOn && !(userEntry s a).invalid && decide (entryPhys (userEntry s a) a < s.cfg.boards.words)

/-- The word a mapped reference reads. -/
def mappedWord (s : State) (a : Addr) : Word := Memory.readWord s.mem (entryPhys (userEntry s a) a)

/-- After a mapped reference that is not a single-cycle one (47_map R594, D28). -/
def referred (s : State) : State := { s with ms := { s.ms with sc := false } }

/-- After a mapped write. -/
def withMappedWord (s : State) (a : Addr) (v : Word) : State :=
  { s.referred with mem := Memory.writeWord s.mem (entryPhys (userEntry s a) a) v }

/-- The end of an indirection chain in user mode that starts with the pointer word at `a`, `level` pointer words having been
read, if one of the first `n` words ends it: every page valid and installed, and the limit of indirect protection not met
(47_map R585). -/
def followMapped (s : State) : Nat → Nat → Addr → Option Addr
  | 0, _, _ => none
  | n + 1, level, a =>
    if indirectLimit s level || !s.mapped a then none
    else if (s.mappedWord a).msb then s.followMapped n (level + 1) ((s.mappedWord a).setWidth 15)
    else some ((s.mappedWord a).setWidth 15)

/-- The effective address in user mode, where the chain ends without a fault. -/
def mappedAt (s : State) (ind : Bool) (ia : Addr) : Option Addr :=
  if ind then s.followMapped Config.chainFuel 0 ia else some ia

/-- Where the pointer word after `n` indirect ones stands, each of those in a valid, installed page. -/
def pointerMapped (s : State) : Nat → Addr → Option Addr
  | 0, a => some a
  | n + 1, a =>
    if s.mapped a && (s.mappedWord a).msb then s.pointerMapped n ((s.mappedWord a).setWidth 15) else none

/-- After the single-cycle reference (47_map R598). -/
def singled (s : State) : State := { s with scPending := false, ms := { s.ms with sc := true } }

/-- After a pending user enable takes effect (47_map R601). -/
def enabled (s : State) : State := { s with mapOn := true, mapPending := false }

end State

/-! ## How an instruction ends -/

/-- A trap whose return block is pushed in `b` ends: in the handler its pointer at `loc` leads to where the stack has room,
else in the stack fault handler, the trap's handler in its return block (44_stack R435, 60_exceptions R656, D52). -/
def TrapEnds (b : State) (loc : Addr) (r : Host.Outcome State Fault Refusal) : Prop :=
  ∀ h : Addr, b.pointerEnd loc = some h →
    (b.overflows = false → r = .next (b.goto h)) ∧
    (b.overflows = true → ∀ t : Addr, (b.stackFaulted h).pointerEnd sfaLoc = some t →
      r = .next ((b.stackFaulted h).goto t))

/-- A checking floating-point instruction of `len` words that left `u` ends: at the next word where no error meets trap
enable, else in the floating-point fault handler (43_floating_point R340). -/
def FloatEnds (u : State) (len : Nat) (r : Host.Outcome State Fault Refusal) : Prop :=
  ((Fpsr.any u.fpsr && u.fpsr.te) = false → r = .next (u.next len)) ∧
  ((Fpsr.any u.fpsr && u.fpsr.te) = true → Supervisor u →
    TrapEnds (u.trapOff.withBlock (u.pc + BitVec.ofNat 15 len)) 0o45 r)

/-- A MAP protection fault of kind `k` that left `s` ends in its handler, with some program counter value in the return block
(47_map R582). -/
def MapFaults (s : State) (k : MapFaultKind) (r : Host.Outcome State Fault Refusal) : Prop :=
  s.p31 = Config.page31Reset → s.scPending = false → Quiet s → ∃ ret : Addr,
    TrapEnds (({ s.faultKind k with freeIdx := s.freeIdx + 1 } : State).withBlock ret) 3 r

/-! ## Comparing memories -/

/-- Memory is the same in two states outside the words stored to. -/
def SameOutside (s t : State) (stored : List Addr) : Prop :=
  ∀ b : Nat, b / 2 ∉ stored.map BitVec.toNat → Memory.read t.mem b = Memory.read s.mem b

/-- The value of a memory operand in supervisor mode (43_floating_point R341). -/
def State.floatAt (s : State) (p : Sys2Proof.Machine.Prec) (e : Addr) : QWord :=
  match p with
  | .single => s.wordAt e ++ s.wordAt (e + 1) ++ (0 : DWord)
  | .double => s.wordAt e ++ s.wordAt (e + 1) ++ s.wordAt (e + 2) ++ s.wordAt (e + 3)

/-! ## Flag commands and devices in claims -/

/-- After the flag command of an instruction to an external controller that answers (46_io R504). -/
def State.extFlagged (s : State) (d : DevCode) (f : IoFlag) : State :=
  if f = .none then s else { s with ext := mapExt d (extCommand f) s.ext, outputs := .extFlag d f :: s.outputs }

/-- After a word is placed in an output buffer of an external controller that answers (46_io R510 to R512). -/
def State.extPut (s : State) (d : DevCode) (buf : OutBuffer) (v : Word) : State :=
  { s with ext := mapExt d (putBuffer buf v) s.ext, outputs := .extData d buf v :: s.outputs }

/-- After the flag command of an instruction to the MAP: only P acts (47_map R598, R599). -/
def State.mapFlagged (s : State) (f : IoFlag) : State := if f = .pulse then niopAction s else s

/-- The user map in force places every logical page at the physical page of its own number, unprotected; no user enable and no
single cycle is pending, and memory is quiet. -/
def IdentityMapped (s : State) : Prop :=
  s.mapOn = true ∧ s.mapPending = false ∧ s.scPending = false ∧ s.ms.indp = false ∧ Quiet s ∧
    ∀ p : BitVec 5, PageMap.entry (s.umap.get s.ms.nme) p = ⟨false, p.setWidth 10⟩

/-- The word stands in the I/O format: its bits 0 to 2 are 011 (30_encoding R170, 47_map R579). -/
def ioFormat (i : Instr) : Bool := decide (((encode i).getD 0 0).extractLsb' 13 3 = 3)

end Sys2Proof.Machine
end

