-- ==== Sys2Proof/Safety.lean ====
section
/-!
DEFINITION. What a well-kept state of the machine is, in the terms claims use: the invariant of every step.
-/

namespace Sys2Proof.Machine

/-- Every listed byte lies in installed memory (20_memory R103). -/
def memInstalled (s : State) : Bool := s.mem.all fun c => decide (c.1 < 2 * s.cfg.boards.words)

/-- A word is an XCT, a BLM or an LMP, the same in every mode: what XCT can go on with in a later step (45_program_flow
R480). -/
def isHeldWord (w : Word) : Bool :=
  match decodeWords false w 0 with
  | some (.xct _) => true
  | some .blm => true
  | some .lmp => true
  | _ => false

/-- The word XCT keeps is one of those, and there is one only while the processor runs. -/
def xctSound (s : State) : Bool :=
  match s.xct with
  | some w => isHeldWord w && decide (s.runState = .running)
  | none => true

/-- Every error of memory stands in an installed word (46_io R554). -/
def faultsInstalled (s : State) : Bool := s.memFaults.all fun f => decide (f.addr.toNat < s.cfg.boards.words)

/-- Every external controller has a code the processor board does not use. -/
def extSound (s : State) : Bool := s.ext.all fun d => !isBoard d.code && decide (d.code ≠ devCpu) && decide (d.code ≠ 0)

/-- The invariant: memory in its canonical form and inside installed memory, its errors too, the user map never on while its
enable still waits (47_map R601), the word XCT keeps and the controllers sound. -/
def Sound (s : State) : Prop :=
  Memory.wf s.mem = true ∧ memInstalled s = true ∧ faultsInstalled s = true ∧ (s.mapOn && s.mapPending) = false ∧
    xctSound s = true ∧ extSound s = true

end Sys2Proof.Machine
end

