-- ==== Sys2Proof/Certificates/Slice0/Obligations.lean ====
section
/-!
DEFINITION. The statements for the provers. A statement of what an instruction does is an equation with its next state, so that
it also says that the instruction completes and that nothing else changes.
-/

open Sys2Proof Sys2Proof.Machine

/-! ## Encoding -/

/-- In the mode that selects it, every well-formed instruction is decoded from its own bytes, whatever follows them
(30_encoding R160 to R193). -/
def Obligations.DecodeOfEncode : Prop :=
  ∀ (i : Instr) (lef : Bool) (rest : List (BitVec 8)), i.wf = true → i.selectedIn lef = true →
    decode lef (bytesOf (encode i) ++ rest) = .ok (i, rest)

/-- Words written out from the encodings of 30_encoding decode to their instructions, one or more a class. -/
def Obligations.SampleWordsDecode : Prop :=
  decodeWords false 0o002005 0 = some (.jmp ⟨true, .abs, 5⟩) ∧
  decodeWords false 0o031402 0 = some (.lda 2 ⟨false, .ac3, 2⟩) ∧
  decodeWords true 0o064405 0 = some (.lef 1 ⟨false, .pc, 5⟩) ∧
  decodeWords false 0o103000 0 = some (.add ⟨0, 0, .none, .current, false, .never⟩) ∧
  decodeWords false 0o163770 7 = some (.addi 0 7) ∧
  decodeWords false 0o133710 0 = some .blm ∧
  decodeWords false 0o106050 0o500 = some (.flds 1 ⟨false, .abs, 0o500⟩) ∧
  decodeWords false 0o103110 0 = some (.psh 0 0) ∧
  decodeWords false 0o133370 0 = some (.xct 2) ∧
  decodeWords false 0o060177 0 = some (.inten 0) ∧
  decodeWords false 0o065003 0 = some (.doaMap 1 .none) ∧
  decodeWords false 0o061777 0o001000 = some (.vct false 0o1000)

/-! ## The machine -/

/-- After power-up (10_state R95, 70_reset R681): what the manual states, and in `ionHold` the decision of R95. -/
def Obligations.ResetValues : Prop :=
  State.reset.ion = false ∧ State.reset.ionHold = .none ∧ State.reset.mask = 0 ∧
  State.reset.con = ⟨false, true, false, false, false, false⟩ ∧ State.reset.pf = false ∧
  State.reset.runState = .halted ∧
  (State.reset.tti.busy, State.reset.tti.done, State.reset.tto.busy, State.reset.tto.done) = (false, false, false, false) ∧
  State.reset.rtc = ⟨false, false, 0⟩ ∧ State.reset.pit = ⟨false, false, 0, 0⟩ ∧
  State.reset.ercc.done = false ∧ erccEnabled State.reset.ercc = false ∧
  State.reset.ms.nme = 0 ∧ State.reset.ms.lef = false ∧ State.reset.ms.iop = false ∧ State.reset.ms.wpe = false ∧
  State.reset.ms.indp = false ∧ State.reset.ms.dch = false ∧ State.reset.ms.ue = false ∧ State.reset.ms.um = false ∧
  State.reset.mapOn = false ∧ State.reset.mapPending = false ∧ State.reset.scPending = false ∧ State.reset.p31 = 31

/-- The invariant holds after power-up. -/
def Obligations.ResetInvariant : Prop := Sound State.reset

/-- Every step, whatever it is, keeps the invariant: memory stays in its canonical form and inside installed memory, its
errors too, the user map is never on while its enable waits, the word XCT keeps and the external controllers stay
sound. -/
def Obligations.StepKeepsInvariant : Prop := ∀ s t : State, Sound s → step s = .next t → Sound t

/-- Halted after power-up with no host input waiting, the processor enters the console: the power-up bit and the other
console interrupts fall (log 38), the run light is off, installed memory is left with any values and no errors, and
nothing else changes but for the self-test's outcome. With no error the console prompts where the panel is unlocked or
the automatic load device is 0, and else the load the APL register selects begins, of a device that is not the reserved
77. After an error the console keeps control, locked or not, the flag displayed, and waits; the BREAK key then brings the
next flag or, with none left, the prompt (70_reset R680, R704, R718). That the host announces the errors, and that BREAK
goes on to a further flag, is the model's choice (log 38). -/
def Obligations.PowerUpEntersConsole : Prop :=
  (∀ s : State, s.runState = .halted → s.con.pup = true → s.inputs = [] →
    let started := fun (faults : List MemFault) => { s with
      con := ⟨false, false, false, false, false, false⟩, runLight := false, xct := none, memFaults := faults }
    (s.testErrors = [] → s.cfg.locked = false ∨ s.cfg.aplCode = 0 →
      ∃ t : State, step s = .next t ∧ t.runState = .console ∧ t.con.pup = false ∧
        (∀ f ∈ t.memFaults, s.cfg.boards.words ≤ f.addr.toNat) ∧
        State.SameButMemory { started t.memFaults with runState := .console } t) ∧
    (s.testErrors = [] → s.cfg.locked = true → s.cfg.aplCode ≠ 0 → s.cfg.aplCode ≠ devCpu →
      ∃ t : State, step s = .next t ∧ t.con.pup = false ∧ t.ion = false ∧
        (∀ f ∈ t.memFaults, s.cfg.boards.words ≤ f.addr.toNat) ∧
        t.runState = if s.cfg.aplDch then .loadDch s.cfg.aplCode else .loadPio s.cfg.aplCode []) ∧
    (∀ (e : SelfTestError) (rest : List SelfTestError), s.testErrors = e :: rest →
      ∃ t : State, step s = .next t ∧ t.con.pup = false ∧
        (∀ f ∈ t.memFaults, s.cfg.boards.words ≤ f.addr.toNat) ∧
        State.SameButMemory { started t.memFaults with
          runState := .testError rest, testErrors := [], outputs := .selfTestFlag e :: s.outputs } t)) ∧
  ∀ (s : State) (rest : List SelfTestError), s.runState = .testError rest →
    (s.inputs = [] → step s = .next s) ∧
    (∀ coming : List HostInput, s.inputs = .breakKey :: coming →
      (rest = [] → step s = .next { s with runState := .console, inputs := coming }) ∧
      (∀ (e : SelfTestError) (es : List SelfTestError), rest = e :: es →
        step s = .next { s with
          runState := .testError es, outputs := .selfTestFlag e :: s.outputs, inputs := coming }))

/-- With no interrupt due and no host input waiting, a running processor in supervisor mode executes the instruction
whose bytes stand at the program counter: `step` is `exec` of it, the interrupt hold counted down. The hold after ION
rises lasts for one instruction, and for one more after one of the one-cycle instructions of Appendix C, listed here
(45_program_flow R461, 46_io R522). That both are as R522 states them, and not one or two instructions as it allows, is
log 26. -/
def Obligations.StepRunsDecoded : Prop :=
  (∀ (s : State) (i : Instr) (rest : List (BitVec 8)),
    s.runState = .running → s.xct = none → s.inputs = [] → s.con.trp = false → interruptDue s = false → Supervisor s →
    decode false (bytesOf [s.wordAt s.pc, s.wordAt (s.pc + 1)]) = .ok (i, rest) →
    step s = exec i (countHold (oneCycle i) s)) ∧
  (∀ (one : Bool) (s : State),
    (s.ionHold = .none → countHold one s = s) ∧
    (s.ionHold = .held → countHold one s = { s with ionHold := if one then .last else .none }) ∧
    (s.ionHold = .last → countHold one s = { s with ionHold := .none })) ∧
  ∀ i : Instr, oneCycle i = true ↔
    (∃ o : AlcOps, i ∈ [.adc o, .add o, .and o, .com o, .inc o, .mov o, .neg o, .sub o]) ∨
    (∃ (n : BitVec 2) (ac : AcNo), i = .adi n ac ∨ i = .sbi n ac) ∨
    ∃ acs acd : AcNo, i = .anc acs acd ∨ i = .sge acs acd ∨ i = .sgt acs acd

/-- The same in user mode, through the user map: the fetch is a mapped reference, and LEF mode selects the decoding
(47_map R576, R580). That the fetch clears the single-cycle bit is the decision D28 of R594 (log 33). Stated where I/O
protection does not apply and memory is quiet; MapFaultsTaken says what happens where a fetch faults or the instruction is
protected. -/
def Obligations.StepRunsDecodedMapped : Prop :=
  ∀ (s : State) (i : Instr) (rest : List (BitVec 8)),
    s.runState = .running → s.xct = none → s.inputs = [] → s.con.trp = false → interruptDue s = false →
    Quiet s → ioProtected s = false → s.mapped s.pc = true → (i.words = 2 → s.mapped (s.pc + 1) = true) →
    decode (lefMode s) (bytesOf [s.mappedWord s.pc, s.mappedWord (s.pc + 1)]) = .ok (i, rest) →
    step s = exec i (countHold (oneCycle i) s.referred)

/-! ## Arithmetic and logic -/

/-- The ALC sequence of the eight instructions: carry initialised and complemented by the carry out, the shift, the skip
tests on the shifter's output, which is loaded unless the no-load bit is set (40_fixed_point_alc R201, R203 to R205). The
sense of the test SEZ is the spec's resolution of a conflict (90_conflicts C44). -/
def Obligations.AlcSequence : Prop :=
  (∀ (o : AlcOps) (s : State),
    let done := fun (fn : Word → Word → Bool × Word) =>
      let r := alcResult fn o s.cry (s.ac.get o.acs) (s.ac.get o.acd)
      Host.Outcome.next (φ := Fault) (ρ := Refusal)
        ((if o.noLoad then s else { s.withAc o.acd r.2 with cry := r.1 }).nextSkip 1 (alcSkip o.skip r.1 r.2))
    exec (.adc o) s = done fnAdc ∧ exec (.add o) s = done fnAdd ∧ exec (.and o) s = done fnAnd ∧
    exec (.com o) s = done fnCom ∧ exec (.inc o) s = done fnInc ∧ exec (.mov o) s = done fnMov ∧
    exec (.neg o) s = done fnNeg ∧ exec (.sub o) s = done fnSub) ∧
  (∀ (fn : Word → Word → Bool × Word) (o : AlcOps) (c : Bool) (x y : Word),
    alcResult fn o c x y =
      alcShift o.shift (if (fn x y).1 then !carryInit o.carry c else carryInit o.carry c) (fn x y).2) ∧
  (∀ c : Bool, carryInit .current c = c ∧ carryInit .zero c = false ∧ carryInit .one c = true ∧
    carryInit .complement c = !c) ∧
  ∀ (c : Bool) (r : Word),
    alcSkip .never c r = false ∧ alcSkip .always c r = true ∧
    (alcSkip .szc c r = true ↔ c = false) ∧ (alcSkip .snc c r = true ↔ c = true) ∧
    (alcSkip .szr c r = true ↔ r = 0) ∧ (alcSkip .snr c r = true ↔ r ≠ 0) ∧
    (alcSkip .sez c r = true ↔ c = false ∨ r = 0) ∧ (alcSkip .sbn c r = true ↔ c = true ∧ r ≠ 0)

/-- The functions as 17-bit arithmetic, carry out and result together, and the shifter as 17-bit rotation
(40_fixed_point_alc R202, R210 to R217). -/
def Obligations.AlcArithmetic : Prop :=
  (∀ s d : Word,
    (fnAdd s d).1.toNat * 65536 + (fnAdd s d).2.toNat = d.toNat + s.toNat ∧
    (fnAdc s d).1.toNat * 65536 + (fnAdc s d).2.toNat = d.toNat + (65535 - s.toNat) ∧
    (fnSub s d).1.toNat * 65536 + (fnSub s d).2.toNat = d.toNat + (65536 - s.toNat) ∧
    (fnInc s d).1.toNat * 65536 + (fnInc s d).2.toNat = s.toNat + 1 ∧
    (fnNeg s d).1.toNat * 65536 + (fnNeg s d).2.toNat = 65536 - s.toNat ∧
    fnAnd s d = (false, s &&& d) ∧ fnMov s d = (false, s) ∧ (fnCom s d).1 = false ∧
    (fnCom s d).2.toNat = 65535 - s.toNat) ∧
  (∀ (c : Bool) (r : Word),
    let out := fun sh => (alcShift sh c r).1.toNat * 65536 + (alcShift sh c r).2.toNat
    let v := c.toNat * 65536 + r.toNat
    out .none = v ∧ out .left = 2 * v % 131072 + v / 65536 ∧ out .right = v / 2 + v % 2 * 65536 ∧
    out .swap = c.toNat * 65536 + r.toNat % 256 * 256 + r.toNat / 256)

/-- Immediates, small immediates, hex shifts, HLV, ANC, IOR, XOR, COB, XCH change their accumulators and nothing else but
the program counter (41_fixed_point R230 to R233, R242 to R246, R250 to R253, R259). That carry stands is what their
entries say for ADDI, ADI, SBI and COB, the decision D70 of R229 for ANDI, IORI, XORI, HXL, HXR, HLV, IOR, XOR and XCH,
and the resolution of a conflict in R229 (90_conflicts C50) for ANC (log 33). -/
def Obligations.AccumulatorResults : Prop :=
  ∀ (ac acs acd : AcNo) (n : BitVec 2) (i : Word) (s : State),
    exec (.addi ac i) s = .next ((s.withAc ac (s.ac.get ac + i)).next 2) ∧
    exec (.andi ac i) s = .next ((s.withAc ac (s.ac.get ac &&& i)).next 2) ∧
    exec (.iori ac i) s = .next ((s.withAc ac (s.ac.get ac ||| i)).next 2) ∧
    exec (.xori ac i) s = .next ((s.withAc ac (s.ac.get ac ^^^ i)).next 2) ∧
    exec (.adi n ac) s = .next ((s.withAc ac (s.ac.get ac + n.setWidth 16 + 1)).next 1) ∧
    exec (.sbi n ac) s = .next ((s.withAc ac (s.ac.get ac - (n.setWidth 16 + 1))).next 1) ∧
    exec (.hxl n ac) s = .next ((s.withAc ac (s.ac.get ac <<< (4 * (n.toNat + 1)))).next 1) ∧
    exec (.hxr n ac) s = .next ((s.withAc ac (s.ac.get ac >>> (4 * (n.toNat + 1)))).next 1) ∧
    exec (.hlv ac) s = .next ((s.withAc ac (BitVec.ofInt 16 ((s.ac.get ac).toInt.tdiv 2))).next 1) ∧
    exec (.anc acs acd) s = .next ((s.withAc acd (~~~s.ac.get acs &&& s.ac.get acd)).next 1) ∧
    exec (.ior acs acd) s = .next ((s.withAc acd (s.ac.get acs ||| s.ac.get acd)).next 1) ∧
    exec (.xor acs acd) s = .next ((s.withAc acd (s.ac.get acs ^^^ s.ac.get acd)).next 1) ∧
    exec (.cob acs acd) s =
      .next ((s.withAc acd (s.ac.get acd +
        BitVec.ofNat 16 ((List.range 16).countP fun k => (s.ac.get acs).getMsbD k))).next 1) ∧
    exec (.xch acs acd) s = .next (((s.withAc acs (s.ac.get acd)).withAc acd (s.ac.get acs)).next 1)

/-- LOB adds the number of zeroes before the first one bit of ACS to ACD; LRB does so where ACS and ACD differ, and clears
that bit of ACS (41_fixed_point R260, R261). -/
def Obligations.LeadingBits : Prop :=
  ∀ (acs acd : AcNo) (s : State) (n : Nat), n ≤ 16 → (∀ k, k < n → (s.ac.get acs).getMsbD k = false) →
    (n = 16 ∨ (s.ac.get acs).getMsbD n = true) →
    exec (.lob acs acd) s = .next ((s.withAc acd (s.ac.get acd + BitVec.ofNat 16 n)).next 1) ∧
    exec (.lrb acs acd) s =
      .next (((if acs = acd then s else s.withAc acd (s.ac.get acd + BitVec.ofNat 16 n)).withAc acs
        (s.ac.get acs &&& ~~~((0x8000 : Word) >>> n))).next 1)

/-- LSH, DLSH by the signed count in bits 8 to 15 of ACS, DHXL, DHXR by hex digits (41_fixed_point R236, R237, R241,
R247). -/
def Obligations.ShiftResults : Prop :=
  ∀ (acs acd : AcNo) (n : BitVec 2) (s : State),
    let k : Int := ((s.ac.get acs).setWidth 8).toInt
    exec (.lsh acs acd) s =
      .next ((s.withAc acd (if 0 ≤ k then s.ac.get acd <<< k.toNat else s.ac.get acd >>> (-k).toNat)).next 1) ∧
    exec (.dlsh acs acd) s =
      .next ((s.withPair acd (if 0 ≤ k then s.pair acd <<< k.toNat else s.pair acd >>> (-k).toNat)).next 1) ∧
    exec (.dhxl n acd) s = .next ((s.withPair acd (s.pair acd <<< (4 * (n.toNat + 1)))).next 1) ∧
    exec (.dhxr n acd) s = .next ((s.withPair acd (s.pair acd >>> (4 * (n.toNat + 1)))).next 1)

/-- MUL, MULS, DIV: the 32-bit product and sum in AC0 and AC1; the unsigned quotient in AC1 and remainder in AC0, or
overflow with carry one and the operands unchanged (41_fixed_point R238, R248, R249). -/
def Obligations.MultiplyDivide : Prop :=
  ∀ s : State,
    let p := (s.ac.get 1).toNat * (s.ac.get 2).toNat + (s.ac.get 0).toNat
    let q : Int := (s.ac.get 1).toInt * (s.ac.get 2).toInt + (s.ac.get 0).toInt
    let n := (s.ac.get 0).toNat * 65536 + (s.ac.get 1).toNat
    let d := (s.ac.get 2).toNat
    exec .mul s = .next (((s.withAc 0 (BitVec.ofNat 16 (p / 65536))).withAc 1 (BitVec.ofNat 16 p)).next 1) ∧
    exec .muls s = .next (((s.withAc 0 (BitVec.ofInt 16 (q / 65536))).withAc 1 (BitVec.ofInt 16 q)).next 1) ∧
    (d ≤ (s.ac.get 0).toNat → exec .div s = .next ({ s with cry := true }.next 1)) ∧
    ((s.ac.get 0).toNat < d → exec .div s =
      .next ({ (s.withAc 0 (BitVec.ofNat 16 (n % d))).withAc 1 (BitVec.ofNat 16 (n / d)) with cry := false }.next 1))

/-- DIVS and DIVX: truncating signed division of AC0 and AC1, or of AC1 alone, by AC2 (41_fixed_point R239, R240). Where
the quotient does not fit, a zero divisor among them as R239 derives, carry is one and AC0 and AC1 are any values. That
a quotient of -32768 fits is the decision D71 of R239 (log 33). -/
def Obligations.SignedDivide : Prop :=
  ∀ s : State,
    let d := (s.ac.get 2).toInt
    let result := fun n : Int =>
      ({ (s.withAc 0 (BitVec.ofInt 16 (n.tmod d))).withAc 1 (BitVec.ofInt 16 (n.tdiv d)) with cry := false } : State)
    let fits := fun n : Int => d ≠ 0 ∧ -32768 ≤ n.tdiv d ∧ n.tdiv d ≤ 32767
    (fits (s.pair 0).toInt → exec .divs s = .next ((result (s.pair 0).toInt).next 1)) ∧
    (fits (s.ac.get 1).toInt → exec .divx s = .next ((result (s.ac.get 1).toInt).next 1)) ∧
    (¬ fits (s.pair 0).toInt → ∃ x y : Word, exec .divs s =
      .next ({ (s.withAc 0 x).withAc 1 y with cry := true, freeIdx := s.freeIdx + 2 }.next 1)) ∧
    (¬ fits (s.ac.get 1).toInt → ∃ x y : Word, exec .divx s =
      .next ({ (s.withAc 0 x).withAc 1 y with cry := true, freeIdx := s.freeIdx + 2 }.next 1))

/-- DAD and DSB on decimal digits, and with a digit above nine, where the digit and carry are any values (41_fixed_point
R234, R235; for DSB by the decision of R235). -/
def Obligations.DecimalResults : Prop :=
  ∀ (acs acd : AcNo) (s : State),
    let x := (s.ac.get acs).toNat % 16
    let y := (s.ac.get acd).toNat % 16
    let c := s.cry.toNat
    let set := fun (d : Nat) (e : Bool) =>
      ({ s.withAc acd (BitVec.ofNat 16 ((s.ac.get acd).toNat / 16 * 16 + d)) with cry := e } : State)
    (x ≤ 9 → y ≤ 9 →
      exec (.dad acs acd) s = .next ((set ((x + y + c) % 10) (decide (10 ≤ x + y + c))).next 1) ∧
      exec (.dsb acs acd) s =
        .next ((set ((10 + y + c - (x + 1)) % 10) (decide (x + 1 ≤ y + c))).next 1)) ∧
    ((9 < x ∨ 9 < y) → ∃ (d : BitVec 4) (e : Bool),
      exec (.dad acs acd) s = .next ({ set d.toNat e with freeIdx := s.freeIdx + 2 }.next 1) ∧
      exec (.dsb acs acd) s = .next ({ set d.toNat e with freeIdx := s.freeIdx + 2 }.next 1))

/-! ## Data movement -/

/-- LDA and ELDA in supervisor mode, every address form whose chain ends; LDB and ELDB, the byte right justified; ELEF
in supervisor mode; LEF in its only mode, mapped with LEF mode on, with a direct address and with a chain through the
user map (42_data_movement R280, R282, R284, R290 to R292; 47_map R580). First the addresses themselves: the short,
extended and byte addresses of each index, in 15 bits, and the halves of a word; and LDA unmapped with any page-31
register (20_memory R103, R112, R113, R120, R121; 47_map R575). That the mapped pointer reads of LEF clear the
single-cycle bit is the decision D28 of R594 (log 33). -/
def Obligations.Loads : Prop :=
  (∀ (s : State) (ind : Bool) (d : BitVec 8) (x : Addr) (w : Word),
    let short := fun (i : Index) => shortIa s ⟨ind, i, d⟩
    let ext := fun (i : Index) => extIa s ⟨ind, i, x⟩
    let byte := fun (i : Index) => extByteAddr s i w
    let pc : Int := s.pc.toNat
    let ac2 : Int := (s.ac.get 2).toNat
    let ac3 : Int := (s.ac.get 3).toNat
    [short .abs, short .pc, short .ac2, short .ac3] =
      [(d.toNat : Int), pc + d.toInt, ac2 + d.toInt, ac3 + d.toInt].map (BitVec.ofInt 15) ∧
    [ext .abs, ext .pc, ext .ac2, ext .ac3] =
      [(x.toNat : Int), pc + 1 + x.toNat, ac2 + x.toNat, ac3 + x.toNat].map (BitVec.ofInt 15) ∧
    [byte .abs, byte .pc, byte .ac2, byte .ac3] =
      [((w.toNat / 2 : Nat) : Int), pc + 1 + (w.toNat / 2 : Nat), ac2 + (w.toNat / 2 : Nat),
        ac3 + (w.toNat / 2 : Nat)].map (BitVec.ofInt 15) ∧
    (bpWord w).toNat = w.toNat / 2 ∧ bpRight w = decide (w.toNat % 2 = 1) ∧
    (byteOf w false).toNat = w.toNat / 256 ∧ (byteOf w true).toNat = w.toNat % 256) ∧
  (∀ (s : State) (ac : AcNo) (sa : ShortAddr),
    s.mapOn = false → s.scPending = false → Quiet s → sa.ind = false →
    let a := (shortIa s sa).toNat
    let pa := if a / 1024 = 31 then s.p31.toNat * 1024 + a % 1024 else a
    (pa < s.cfg.boards.words → exec (.lda ac sa) s = .next ((s.withAc ac (Memory.readWord s.mem pa)).next 1)) ∧
    (s.cfg.boards.words ≤ pa → ∃ w : Word,
      exec (.lda ac sa) s = .next (State.next { s.withAc ac w with freeIdx := s.freeIdx + 1 } 1))) ∧
  ∀ (s : State) (ac acs acd : AcNo) (sa : ShortAddr) (xa : ExtAddr) (e : Addr) (idx : Index) (disp : Word),
    (Supervisor s →
      (s.shortAt sa = some e → exec (.lda ac sa) s = .next ((s.withAc ac (s.wordAt e)).next 1)) ∧
      (s.extAt xa = some e →
        exec (.elda ac xa) s = .next ((s.withAc ac (s.wordAt e)).next 2) ∧
        exec (.elef ac xa) s = .next ((s.withAc ac (joinWord false e)).next 2)) ∧
      exec (.ldb acs acd) s = .next ((s.withAc acd ((s.byteAt (s.ac.get acs)).setWidth 16)).next 1) ∧
      exec (.eldb ac idx disp) s =
        .next ((s.withAc ac ((byteOf (s.wordAt (extByteAddr s idx disp)) (bpRight disp)).setWidth 16)).next 2)) ∧
    (s.mapOn = true → s.ms.lef = true →
      (sa.ind = false → exec (.lef ac sa) s = .next ((s.withAc ac (joinWord false (shortIa s sa))).next 1)) ∧
      (sa.ind = true → s.mapPending = false → Quiet s → s.mappedAt true (shortIa s sa) = some e →
        exec (.lef ac sa) s = .next ((s.referred.withAc ac (joinWord false e)).next 1)))

/-- STA, ESTA in supervisor mode: the word at the effective address becomes the accumulator. STB, ESTB: the addressed byte
becomes bits 8 to 15 of the accumulator. Every other byte and all else stand (42_data_movement R281, R283, R285, R293;
20_memory R106, R121). -/
def Obligations.Stores : Prop :=
  ∀ (s : State) (ac acs acd : AcNo) (sa : ShortAddr) (xa : ExtAddr) (e : Addr) (idx : Index) (disp : Word), Supervisor s →
    let word := s.withWord e (s.ac.get ac)
    word.wordAt e = s.ac.get ac ∧ SameOutside s word [e] ∧
    (s.shortAt sa = some e → exec (.sta ac sa) s = .next (word.next 1)) ∧
    (s.extAt xa = some e → exec (.esta ac xa) s = .next (word.next 2)) ∧
    (∃ t : State, exec (.stb acs acd) s = .next (t.next 1) ∧ { t with mem := s.mem } = s ∧
      t.byteAt (s.ac.get acs) = lowByte (s.ac.get acd) ∧
      ∀ b : Nat, b ≠ 2 * (bpWord (s.ac.get acs)).toNat + (bpRight (s.ac.get acs)).toNat →
        Memory.read t.mem b = Memory.read s.mem b) ∧
    (∃ t : State, exec (.estb ac idx disp) s = .next (t.next 2) ∧ { t with mem := s.mem } = s ∧
      byteOf (t.wordAt (extByteAddr s idx disp)) (bpRight disp) = lowByte (s.ac.get ac) ∧
      ∀ b : Nat, b ≠ 2 * (extByteAddr s idx disp).toNat + (bpRight disp).toNat →
        Memory.read t.mem b = Memory.read s.mem b)

/-- One word of BLM and BAM, and their end (42_data_movement R300, R301, R306): the count down, both addresses up, bit 0
of each zero; the program counter moves with the last word. A count of zero moves nothing; that one with bit 0 set moves
nothing either is the decision D76 (log 33), and one word a step with the program counter unchanged is the decision D73
(log 28). -/
def Obligations.BlockMoves : Prop :=
  ∀ (s : State) (a b : Addr), Supervisor s →
    let n := s.ac.get 1
    let after := fun w : Word =>
      ({ s.withWord b w with ac := ⟨s.ac.get 0, n - 1, joinWord false (a + 1), joinWord false (b + 1)⟩ } : State)
    (n = 0 ∨ n.msb = true → exec .blm s = .next (s.next 1) ∧ exec .bam s = .next (s.next 1)) ∧
    (n ≠ 0 → n.msb = false → s.wordTarget (s.ac.get 2) = some a → s.wordTarget (s.ac.get 3) = some b →
      exec .blm s = .next (if n = 1 then (after (s.wordAt a)).next 1 else after (s.wordAt a)) ∧
      exec .bam s =
        .next (if n = 1 then (after (s.wordAt a + s.ac.get 0)).next 1 else after (s.wordAt a + s.ac.get 0)) ∧
      ∀ w : Word, SameOutside s (after w) [b])

/-- One byte of CMV and its end: a source byte, or a space where the source is exhausted, goes to the destination; carry
says at the end that source bytes remain (42_data_movement R302). The sense of carry is general knowledge and the
decision D74 of R302 (log 50, PRESUMED); one byte a step is the decision D73 (log 28). Last, how a length goes toward
zero and a byte pointer with its direction. -/
def Obligations.CmvResults : Prop :=
  ∀ s : State, Supervisor s →
    let d := s.ac.get 0
    let l := s.ac.get 1
    let b : BitVec 8 := if l = 0 then 0o40 else s.byteAt (s.ac.get 3)
    let l' := if l = 0 then 0 else decLen l
    let t : State :=
      { s.withByteAt (s.ac.get 2) b with
        ac := ⟨decLen d, l', stepBy d (s.ac.get 2), if l = 0 then s.ac.get 3 else stepBy l (s.ac.get 3)⟩ }
    (d = 0 → exec .cmv s = .next ({ s with cry := decide (l ≠ 0) }.next 1)) ∧
    (d ≠ 0 → exec .cmv s = .next (if decLen d = 0 then { t with cry := decide (l' ≠ 0) }.next 1 else t)) ∧
    SameOutside s t [bpWord (s.ac.get 2)] ∧
    (∀ l bp : Word, decLen l = (if l.toInt < 0 then l + 1 else l - 1) ∧
      stepBy l bp = (if l.toInt < 0 then bp - 1 else bp + 1))

/-- One byte pair of CMP and its end: equal bytes are passed, unequal ones put their order in AC1 (42_data_movement
R303). What AC0 and the pointers hold after an inequality is the decision D77 of R303 (log 33); one pair a step is the
decision D73 (log 28). Last, how a length goes toward zero and a byte pointer with its direction. -/
def Obligations.CmpResults : Prop :=
  ∀ s : State, Supervisor s →
    let l2 := s.ac.get 0
    let l1 := s.ac.get 1
    let b2 : BitVec 8 := if l2 = 0 then 0o40 else s.byteAt (s.ac.get 2)
    let b1 : BitVec 8 := if l1 = 0 then 0o40 else s.byteAt (s.ac.get 3)
    let m2 := if l2 = 0 then 0 else decLen l2
    let m1 := if l1 = 0 then 0 else decLen l1
    let t : State :=
      { s with ac := ⟨m2, m1, if l2 = 0 then s.ac.get 2 else stepBy l2 (s.ac.get 2),
          if l1 = 0 then s.ac.get 3 else stepBy l1 (s.ac.get 3)⟩ }
    (l2 = 0 → l1 = 0 → exec .cmp s = .next ((s.withAc 1 0).next 1)) ∧
    (¬ (l2 = 0 ∧ l1 = 0) → b1 = b2 → exec .cmp s = .next (if m2 = 0 ∧ m1 = 0 then t.next 1 else t)) ∧
    (¬ (l2 = 0 ∧ l1 = 0) → b1 ≠ b2 →
      exec .cmp s = .next ((s.withAc 1 (if b1.toNat < b2.toNat then 0o177777 else 1)).next 1)) ∧
    (∀ l bp : Word, decLen l = (if l.toInt < 0 then l + 1 else l - 1) ∧
      stepBy l bp = (if l.toInt < 0 then bp - 1 else bp + 1))

/-- One byte of CMT and its end: a byte whose bit in the delimiter table is zero is moved; a delimiter or the last byte
ends the instruction with carry any value (42_data_movement R304). Which bit of the table belongs to a byte is the
decision D78 (log 33); one byte a step is the decision D73 (log 28). Last, how a length goes toward zero and a byte
pointer with its direction. -/
def Obligations.CmtResults : Prop :=
  ∀ (s : State) (table : Addr), Supervisor s → s.wordTarget (s.ac.get 0) = some table →
    let u := s.withAc 0 (joinWord false table)
    let l := s.ac.get 1
    let b := s.byteAt (s.ac.get 3)
    let hit := bitOf (s.wordAt (table + BitVec.ofNat 15 (b.toNat / 16))) (b.setWidth 4)
    let t : State :=
      { s.withByteAt (s.ac.get 2) b with
        ac := ⟨joinWord false table, decLen l, stepBy l (s.ac.get 2), stepBy l (s.ac.get 3)⟩ }
    (l = 0 ∨ hit = true → ∃ c : Bool, exec .cmt s = .next ({ u with cry := c, freeIdx := s.freeIdx + 1 }.next 1)) ∧
    (l ≠ 0 → hit = false → decLen l ≠ 0 → exec .cmt s = .next t) ∧
    (l ≠ 0 → hit = false → decLen l = 0 →
      ∃ c : Bool, exec .cmt s = .next ({ t with cry := c, freeIdx := s.freeIdx + 1 }.next 1)) ∧
    SameOutside s t [bpWord (s.ac.get 2)] ∧
    (∀ l bp : Word, decLen l = (if l.toInt < 0 then l + 1 else l - 1) ∧
      stepBy l bp = (if l.toInt < 0 then bp - 1 else bp + 1))

/-- One byte of CTR and its end: with bit 0 of AC1 one a byte is translated and moved, else two translated bytes are
compared (42_data_movement R305). One byte a step with the program counter unchanged is the decision D73 (log 28, log
33); that the word that points to the table is read anew for each byte is log 28. -/
def Obligations.CtrResults : Prop :=
  ∀ (s : State) (a : Addr), Supervisor s → s.wordTarget (s.ac.get 0) = some a →
    let tr := fun b : BitVec 8 => s.byteAt (s.wordAt a + b.setWidth 16)
    let n := s.ac.get 1
    let a0 := joinWord false a
    let t3 := tr (s.byteAt (s.ac.get 3))
    let t2 := tr (s.byteAt (s.ac.get 2))
    let stepped := fun m : Word => (⟨a0, m, s.ac.get 2 + 1, s.ac.get 3 + 1⟩ : Quad Word)
    let moved : State := { s.withByteAt (s.ac.get 2) t3 with ac := stepped (n + 1) }
    (n.msb = true → exec .ctr s = .next (if n + 1 = 0 then moved.next 1 else moved)) ∧
    SameOutside s moved [bpWord (s.ac.get 2)] ∧
    (n = 0 → exec .ctr s = .next ((s.withAc 0 a0).next 1)) ∧
    (n.msb = false → n ≠ 0 → t3 = t2 →
      exec .ctr s = .next (if n - 1 = 0 then ({ s with ac := stepped (n - 1) } : State).next 1
        else { s with ac := stepped (n - 1) })) ∧
    (n.msb = false → n ≠ 0 → t3 ≠ t2 →
      exec .ctr s = .next (((s.withAc 0 a0).withAc 1 (if t3.toNat < t2.toNat then 0o177777 else 1)).next 1))

/-- BTO, BTZ, SZBO write one bit of memory, SNB and SZB only test it; the bit number is the low four bits of ACD, the
word offset the other twelve (42_data_movement R310 to R314; 20_memory R125, R127). That BTO and BTZ follow an indirect
ACS is the decision D8 on a conflict (90_conflicts C9), and what SZBO writes the decision D78 (log 33). -/
def Obligations.BitResults : Prop :=
  ∀ (s : State) (acs acd : AcNo) (a : Addr), Supervisor s → s.bitPlace acs acd = some a →
    let k := bitNumber (s.ac.get acd)
    let w := s.wordAt a
    let one := s.withWord a (w ||| bitMask k)
    let zero := s.withWord a (w &&& ~~~bitMask k)
    exec (.bto acs acd) s = .next (one.next 1) ∧ exec (.btz acs acd) s = .next (zero.next 1) ∧
    exec (.szbo acs acd) s = .next (one.nextSkip 1 (!w.getMsbD k.toNat)) ∧
    exec (.snb acs acd) s = .next (s.nextSkip 1 (w.getMsbD k.toNat)) ∧
    exec (.szb acs acd) s = .next (s.nextSkip 1 (!w.getMsbD k.toNat)) ∧
    SameOutside s one [a] ∧ SameOutside s zero [a] ∧
    (∀ j : Nat, j < 16 →
      (one.wordAt a).getMsbD j = (w.getMsbD j || decide (j = k.toNat)) ∧
      (zero.wordAt a).getMsbD j = (w.getMsbD j && decide (j ≠ k.toNat))) ∧
    ∀ d : Word, (bitNumber d).toNat = d.toNat % 16 ∧ (bitOffset d).toNat = d.toNat / 16

/-! ## Floating point -/

/-- FLDS and FLDD load their operand and leave the status register; FLAS and FLMD float a fixed-point number and set Z and N
(43_floating_point R350, R351, R354, R355). -/
def Obligations.FloatLoads : Prop :=
  ∀ (s : State) (fac ac : AcNo) (xa : ExtAddr) (e : Addr), Supervisor s →
    exec (.flas ac fac) s = .next ((s.floatSet fac (floatInt .single (s.ac.get ac).toInt)).next 1) ∧
    (s.extAt xa = some e →
      exec (.flds fac xa) s = .next ((s.withFpac fac (s.floatAt .single e)).next 2) ∧
      exec (.fldd fac xa) s = .next ((s.withFpac fac (s.floatAt .double e)).next 2) ∧
      exec (.flmd fac xa) s =
        .next ((s.floatSet fac (floatInt .double (s.wordAt e ++ s.wordAt (e + 1) : DWord).toInt)).next 2))

/-- A number's fields; the number that floats an integer has its value and is normalised; an intermediate result is
normalised, its guard digit dropped and its exponent corrected by 128; normalisation keeps the value unless the exponent
underflows; products and quotients of normalised numbers are the exact ones truncated (43_floating_point R333, R336, R354,
R380). Truncation is the decision D89 of R336 (log 33). -/
def Obligations.FloatValues : Prop :=
  (∀ (s : Bool) (e : BitVec 7) (m : BitVec 56) (m6 : BitVec 24) (low : BitVec 32),
    unpack .double (BitVec.ofBool s ++ e ++ m) = ⟨s, e.toNat, m.toNat⟩ ∧
    unpack .single (BitVec.ofBool s ++ e ++ m6 ++ low) = ⟨s, e.toNat, m6.toNat⟩) ∧
  (∀ (p : Prec) (v : Int), v.natAbs < 16 ^ p.digits →
    isNorm p (floatInt p v) = true ∧
    (unpack p (floatInt p v)).mant * 16 ^ (unpack p (floatInt p v)).expo = v.natAbs * 16 ^ (64 + p.digits) ∧
    (unpack p (floatInt p v)).sign = decide (v < 0)) ∧
  (∀ (p : Prec) (s : Bool) (e : Int), finishFp p s e 0 = ⟨0, false, false⟩) ∧
  (∀ (p : Prec) (s : Bool) (e : Int) (m k : Nat),
    16 ^ p.digits ≤ m * 16 ^ k → m * 16 ^ k < 16 ^ (p.digits + 1) → -128 ≤ e - k → e - k ≤ 255 →
    let r := finishFp p s e m
    unpack p r.value = ⟨s, ((e - k) % 128).toNat, m * 16 ^ k / 16⟩ ∧ (p = .single → r.value.extractLsb' 0 32 = 0) ∧
    r.ovf = decide (127 < e - k) ∧ r.unf = decide (e - k < 0)) ∧
  (∀ x : QWord,
    let u := unpack .double x
    let r := finishFp .double u.sign (Int.ofNat u.expo) (16 * u.mant)
    r.ovf = false ∧ isNorm .double r.value = true ∧ (r.unf = false → scaledValue r.value = scaledValue x)) ∧
  (∀ (p : Prec) (x y : QWord), isNorm p x = true → isNorm p y = true →
    let a := unpack p x
    let b := unpack p y
    let one := 16 ^ (64 + p.digits)
    let product := a.mant * 16 ^ a.expo * (b.mant * 16 ^ b.expo)
    let u := unpack p (fpMul p x y).value
    let v := unpack p (fpDiv p x y).value
    ((fpMul p x y).ovf = false → (fpMul p x y).unf = false →
      u.mant * 16 ^ u.expo * one ≤ product ∧ product < (u.mant + 1) * 16 ^ u.expo * one) ∧
    (b.mant ≠ 0 → (fpDiv p x y).ovf = false → (fpDiv p x y).unf = false →
      v.mant * 16 ^ v.expo * (b.mant * 16 ^ b.expo) ≤ a.mant * 16 ^ a.expo * one ∧
      a.mant * 16 ^ a.expo * one < (v.mant + 1) * 16 ^ v.expo * (b.mant * 16 ^ b.expo)))

/-- FSTS, FSTD, FSST: two, four, two words from the effective address up; every other word and all else stand
(43_floating_point R352, R353, R406). -/
def Obligations.FloatStores : Prop :=
  ∀ (s : State) (fac : AcNo) (xa : ExtAddr) (e : Addr), Supervisor s → s.extAt xa = some e →
    let x := s.fpac.get fac
    let two := (s.withWord e (quarter x 0)).withWord (e + 1) (quarter x 1)
    let four := (two.withWord (e + 2) (quarter x 2)).withWord (e + 3) (quarter x 3)
    let status := (s.withWord e (Fpsr.word1 s.fpsr)).withWord (e + 1) (Fpsr.word2 s.fpsr)
    exec (.fsts fac xa) s = .next (two.next 2) ∧ SameOutside s two [e, e + 1] ∧
    exec (.fstd fac xa) s = .next (four.next 2) ∧ SameOutside s four [e, e + 1, e + 2, e + 3] ∧
    exec (.fsst xa) s = .next (status.next 2) ∧ SameOutside s status [e, e + 1]

/-- FFAS and FFMD of a true zero or a normalised number: MOF where the integer part is beyond the register, the low bits
of the truncated integer with its sign (43_floating_point R356, R357). That FFAS leaves Z and N where FFMD clears them
is the decision D93 (log 33). That a later error overwrites FPPC where an error bit already stands is the decision D87
of R335, and that the fault check is of the level of ANY and TE D86 of R340 (log 33). -/
def Obligations.FloatFixes : Prop :=
  (∀ x : QWord, intPart x = (unpack .double x).mant * 16 ^ (unpack .double x).expo / 16 ^ (64 + 14)) ∧
  (∀ (neg : Bool) (j : Nat),
    (fixInt 16 neg j).toInt = (if neg then -1 else 1) * ((j % 32768 : Nat) : Int) ∧
    (fixInt 32 neg j).toInt = (if neg then -1 else 1) * ((j % 2147483648 : Nat) : Int)) ∧
  ∀ (s : State) (fac ac : AcNo) (xa : ExtAddr) (e : Addr),
    let x := s.fpac.get fac
    let raised := fun limit : Nat => s.floatRaised ⟨false, false, false, decide (limit < intPart x)⟩
    let i : DWord := fixInt 32 x.msb (intPart x)
    let stored := ((raised 2147483647).withWord e (i.extractLsb' 16 16)).withWord (e + 1) (i.extractLsb' 0 16)
    isNorm .double x = true →
      FloatEnds ((raised 32767).withAc ac (fixInt 16 x.msb (intPart x))) 1 (exec (.ffas ac fac) s) ∧
      (Supervisor s → s.extAt xa = some e →
        FloatEnds { stored with fpsr := { stored.fpsr with z := false, n := false } } 2 (exec (.ffmd fac xa) s) ∧
        SameOutside s stored [e, e + 1])

/-- Addition, subtraction and single-precision multiplication of numbers that are true zero or normalised, between
accumulators and with memory: the sum of the mantissas aligned with a guard digit, with their signs; the difference as a
sum with the sign inverted; the product's leading digits; each finished as FloatValues says, with its exponent errors, Z
and N (43_floating_point R336, R360 to R368, R370). Truncation is the decision D89 of R336 (log 33). That a later error
overwrites FPPC where an error bit already stands is the decision D87 of R335, and that the fault check is of the level
of ANY and TE D86 of R340 (log 33). -/
def Obligations.FloatArithmetic : Prop :=
  (∀ (p : Prec) (x y : QWord),
    let a := unpack p x
    let b := unpack p y
    let e := max a.expo b.expo
    let signed := fun u : Unp => (if u.sign then -1 else 1) * ((16 * u.mant / 16 ^ (e - u.expo) : Nat) : Int)
    let sum := signed a + signed b
    fpAdd p x y = (if 16 ^ (p.digits + 1) ≤ sum.natAbs then finishFp p (decide (sum < 0)) (e + 1) (sum.natAbs / 16)
      else finishFp p (decide (sum < 0)) e sum.natAbs) ∧
    fpSub p x y = fpAdd p x (BitVec.ofBool (!y.msb) ++ y.extractLsb' 0 63) ∧
    fpMul p x y =
      finishFp p (a.sign ^^ b.sign) ((a.expo : Int) + b.expo - 64) (a.mant * b.mant / 16 ^ (p.digits - 1))) ∧
  ∀ (s : State) (facs facd : AcNo) (xa : ExtAddr) (e : Addr),
    let a := s.fpac.get facd
    let b := s.fpac.get facs
    let ends := fun (i : Instr) (len : Nat) (r : FpResult) => FloatEnds (s.floatDone facd r) len (exec i s)
    (isNorm .single a = true → isNorm .single b = true →
      ends (.fas facs facd) 1 (fpAdd .single a b) ∧ ends (.fss facs facd) 1 (fpSub .single a b) ∧
      ends (.fms facs facd) 1 (fpMul .single a b)) ∧
    (isNorm .double a = true → isNorm .double b = true →
      ends (.fad facs facd) 1 (fpAdd .double a b) ∧ ends (.fsd facs facd) 1 (fpSub .double a b)) ∧
    (Supervisor s → s.extAt xa = some e →
      (isNorm .single a = true → isNorm .single (s.floatAt .single e) = true →
        ends (.fams facd xa) 2 (fpAdd .single a (s.floatAt .single e)) ∧
        ends (.fsms facd xa) 2 (fpSub .single a (s.floatAt .single e)) ∧
        ends (.fmms facd xa) 2 (fpMul .single a (s.floatAt .single e))) ∧
      (isNorm .double a = true → isNorm .double (s.floatAt .double e) = true →
        ends (.famd facd xa) 2 (fpAdd .double a (s.floatAt .double e)) ∧
        ends (.fsmd facd xa) 2 (fpSub .double a (s.floatAt .double e))))

/-- Double-precision multiplication and all division of numbers that are true zero or normalised: the result, the
quotient's leading digits finished as FloatValues says (the product is in FloatArithmetic), and any values in the
working storage above the stack pointer (the control words of the stack excepted: the model's choice, log 32)
(43_floating_point R336, R342, R369, R371 to R375). Truncation is the decision D89 of R336; that a divisor of zero sets
DVZ with the dividend, Z and N unchanged is D91; that FDS clears the low half with its result and FDMS its accumulator's
first is D92 (log 33). That a later error overwrites FPPC where an error bit already stands is the decision D87 of R335,
and that the fault check is of the level of ANY and TE D86 of R340 (log 33). -/
def Obligations.FloatWithStorage : Prop :=
  (∀ (p : Prec) (x y : QWord),
    let a := unpack p x
    let b := unpack p y
    let e : Int := (a.expo : Int) - b.expo + 64
    (mantZero p y = true ↔ b.mant = 0) ∧ clearLow x = x.extractLsb' 32 32 ++ (0 : BitVec 32) ∧
    (b.mant ≠ 0 → b.mant ≤ a.mant →
      fpDiv p x y = finishFp p (a.sign ^^ b.sign) (e + 1) (a.mant * 16 ^ p.digits / b.mant)) ∧
    (a.mant < b.mant →
      fpDiv p x y = finishFp p (a.sign ^^ b.sign) e (a.mant * 16 ^ (p.digits + 1) / b.mant))) ∧
  ∀ (s : State) (facs facd : AcNo) (xa : ExtAddr) (e : Addr), Supervisor s →
    let a := s.fpac.get facd
    let b := s.fpac.get facs
    let leaves := fun (i : Instr) (len room : Nat) (t : State) => ∃ u : State,
      State.SameButMemory t u ∧ SameOutside s u ((s.stackRoom room).filter fun w => !isStackWord w) ∧
        FloatEnds u len (exec i s)
    let divided := fun (p : Prec) (t : State) (x y : QWord) =>
      if mantZero p y then t.floatRaised ⟨false, false, true, false⟩ else t.floatDone facd (fpDiv p x y)
    let cleared := s.withFpac facd (clearLow a)
    (isNorm .double a = true → isNorm .double b = true →
      leaves (.fmd facs facd) 1 4 (s.floatDone facd (fpMul .double a b)) ∧
      leaves (.fdd facs facd) 1 14 (divided .double s a b)) ∧
    (isNorm .single a = true → isNorm .single b = true → leaves (.fds facs facd) 1 6 (divided .single s a b)) ∧
    (s.extAt xa = some e →
      (isNorm .double a = true → isNorm .double (s.floatAt .double e) = true →
        leaves (.fmmd facd xa) 2 4 (s.floatDone facd (fpMul .double a (s.floatAt .double e))) ∧
        leaves (.fdmd facd xa) 2 14 (divided .double s a (s.floatAt .double e))) ∧
      (isNorm .single a = true → isNorm .single (s.floatAt .single e) = true →
        leaves (.fdms facd xa) 2 6 (divided .single cleared (clearLow a) (s.floatAt .single e))))

/-- With an operand that is neither true zero nor normalised and no trap enable, these instructions still complete: the
destination, Z, N, OVF, UNF and FPPC are any values, all else stands (43_floating_point R334; which
values are free is the model's choice, log 30). -/
def Obligations.FloatUnnormalised : Prop :=
  ∀ (s : State) (facs facd : AcNo), s.fpsr.te = false →
    let some' := fun (i : Instr) => ∃ (v : QWord) (ovf unf z n : Bool) (at' : Addr) (k : Nat), exec i s =
      .next (State.next { s.withFpac facd v with
        fpsr := { s.fpsr with ovf := ovf, unf := unf, z := z, n := n, fppc := at' }, freeIdx := k } 1)
    ((isNorm .single (s.fpac.get facd) && isNorm .single (s.fpac.get facs)) = false →
      some' (.fas facs facd) ∧ some' (.fss facs facd) ∧ some' (.fms facs facd)) ∧
    ((isNorm .double (s.fpac.get facd) && isNorm .double (s.fpac.get facs)) = false →
      some' (.fad facs facd) ∧ some' (.fsd facs facd)) ∧
    (isNorm .double (s.fpac.get facd) = false → some' (.fint facd) ∧ some' (.fhlv facd))

/-- FNOM, FRH, FAB, FNEG, FSCAL, FEXP, FINT, FHLV; the scaled mantissa of FSCAL and the integer FINT leaves, by value
(43_floating_point R380 to R387). That FNOM makes no fault check, and that the check of the others is of the level of
ANY and TE, is the decision D86 of R340; that a later error overwrites FPPC where an error bit already stands is D87 of
R335 (log 33). -/
def Obligations.FloatUnary : Prop :=
  ∀ (s : State) (fac : AcNo),
    let x := s.fpac.get fac
    let u := unpack .double x
    let t := (s.ac.get 0).extractLsb' 8 7
    exec (.fnom fac) s = .next ((s.floatDone fac (finishFp .double u.sign (Int.ofNat u.expo) (16 * u.mant))).next 1) ∧
    exec (.frh fac) s = .next ((s.withAc 0 (x.extractLsb' 48 16)).next 1) ∧
    FloatEnds (s.floatSet fac (x &&& 0x7FFFFFFFFFFFFFFF)) 1 (exec (.fab fac) s) ∧
    FloatEnds (s.floatSet fac (if x = 0 then x else x ^^^ 0x8000000000000000)) 1 (exec (.fneg fac) s) ∧
    FloatEnds ((s.floatRaised ⟨false, false, false, (scale x t.toNat).2⟩).floatSet fac (scale x t.toNat).1) 1
      (exec (.fscal fac) s) ∧
    FloatEnds (s.floatSet fac (if x = 0 then x else x.extractLsb' 63 1 ++ t ++ x.extractLsb' 0 56)) 1
      (exec (.fexp fac) s) ∧
    (isNorm .double x = true →
      FloatEnds (s.floatSet fac (integerize x)) 1 (exec (.fint fac) s) ∧
      FloatEnds (s.floatDone fac (finishFp .double u.sign (Int.ofNat u.expo) (8 * u.mant))) 1 (exec (.fhlv fac) s)) ∧
    (x = 0 ∨ t.toNat = u.expo → scale x t.toNat = (x, false)) ∧
    (x ≠ 0 → t.toNat ≠ u.expo →
      let m := if u.expo < t.toNat then u.mant / 16 ^ (t.toNat - u.expo)
        else u.mant * 16 ^ (u.expo - t.toNat) % 16 ^ 14
      (scale x t.toNat).2 = decide (t.toNat < u.expo) ∧ (m = 0 → (scale x t.toNat).1 = 0) ∧
      (m ≠ 0 → unpack .double (scale x t.toNat).1 = ⟨u.sign, t.toNat, m⟩)) ∧
    (isNorm .double x = true →
      let r := integerize x
      let v := unpack .double r
      (intPart x = 0 → r = 0) ∧
      (intPart x ≠ 0 → isNorm .double r = true ∧ v.sign = u.sign ∧
        v.mant * 16 ^ v.expo = u.mant * 16 ^ u.expo / 16 ^ (64 + 14) * 16 ^ (64 + 14)))

/-- FMOV, FCMP of true zeros and normalised numbers by value, FLST, FTE, FTD, FCLE, and the two words of the status
register bit by bit, stored and loaded (43_floating_point R358, R388, R406 to R410). The sense of N in FCMP is the
decision of R388 (log 50, PRESUMED); that FLST ignores bit 0, ANY being the OR of bits 1 to 4, is the decision D88 of
R407 (log 33). That the fault check at the end of FMOV, FLST and FTE is of the level of ANY and TE is D86 of R340 (log
33). -/
def Obligations.FloatStatus : Prop :=
  ∀ (s : State) (facs facd : AcNo) (xa : ExtAddr) (e : Addr),
    let a := s.fpac.get facs
    let b := s.fpac.get facd
    let f := Fpsr.ofWords (s.wordAt e) (s.wordAt (e + 1))
    FloatEnds (s.floatSet facd a) 1 (exec (.fmov facs facd) s) ∧
    (isNorm .double a = true → isNorm .double b = true → exec (.fcmp facs facd) s =
      .next (State.next { s with fpsr := { s.fpsr with
        z := decide (scaledValue b = scaledValue a), n := decide (scaledValue b < scaledValue a) } } 1)) ∧
    (Supervisor s → s.extAt xa = some e →
      FloatEnds { s with fpsr := if Fpsr.any f then { f with fppc := s.pc } else f } 2 (exec (.flst xa) s)) ∧
    FloatEnds { s with fpsr := { s.fpsr with te := true } } 1 (exec .fte s) ∧
    exec .ftd s = .next (State.next { s with fpsr := { s.fpsr with te := false } } 1) ∧
    exec .fcle s =
      .next (State.next { s with fpsr := { s.fpsr with ovf := false, unf := false, dvz := false, mof := false } } 1) ∧
    (∀ g : Fpsr,
      let w := Fpsr.word1 g
      (w.getMsbD 0, w.getMsbD 1, w.getMsbD 2, w.getMsbD 3, w.getMsbD 4) =
        (g.ovf || g.unf || g.dvz || g.mof, g.ovf, g.unf, g.dvz, g.mof) ∧
      (w.getMsbD 5, w.getMsbD 6, w.getMsbD 7, w.getMsbD 8, w.getMsbD 9) = (g.te, g.z, g.n, false, g.res) ∧
      w.extractLsb' 4 2 = 0 ∧ w.extractLsb' 0 4 = 8 ∧
      (Fpsr.word2 g).getMsbD 0 = false ∧ (Fpsr.word2 g).extractLsb' 0 15 = g.fppc ∧
      Fpsr.any g = (g.ovf || g.unf || g.dvz || g.mof)) ∧
    ∀ w1 w2 : Word,
      let g := Fpsr.ofWords w1 w2
      (g.ovf, g.unf, g.dvz, g.mof, g.te, g.z, g.n, g.res) =
        (w1.getMsbD 1, w1.getMsbD 2, w1.getMsbD 3, w1.getMsbD 4, w1.getMsbD 5, w1.getMsbD 6, w1.getMsbD 7,
          w1.getMsbD 9) ∧ g.fppc = w2.extractLsb' 0 15

/-- The sixteen floating-point skips (43_floating_point R390 to R405). -/
def Obligations.FloatSkips : Prop :=
  ∀ s : State,
    let f := s.fpsr
    let skips := fun (i : Instr) (c : Bool) => exec i s = .next (s.nextSkip 1 c)
    skips .fns false ∧ skips .fsa true ∧ skips .fseq f.z ∧ skips .fsne (!f.z) ∧ skips .fslt f.n ∧ skips .fsge (!f.n) ∧
    skips .fsle (f.z || f.n) ∧ skips .fsgt (!f.z && !f.n) ∧ skips .fsnm (!f.mof) ∧ skips .fsnd (!f.dvz) ∧
    skips .fsnu (!f.unf) ∧ skips .fsnud (!f.unf && !f.dvz) ∧ skips .fsno (!f.ovf) ∧ skips .fsnod (!f.ovf && !f.dvz) ∧
    skips .fsnuo (!f.unf && !f.ovf) ∧ skips .fsner (!f.ovf && !f.unf && !f.dvz && !f.mof)

/-! ## The stack -/

/-- FPSH stores its 18 words above the stack pointer, FPOP takes 18 words down from it: the two words of the status
register, then each accumulator's four, the most significant first (44_stack R450, R451); each is one step, the model's
choice (log 29). The order of the words of an accumulator, and that FPOP restores FPPC, are the decision D82 of R450 and
R451 (log 33). -/
def Obligations.FloatStack : Prop :=
  ∀ s : State, Supervisor s →
    let u := (s.storedAbove ((s.wordAt spLoc).setWidth 15) (fpBlock s)).withWord spLoc (s.wordAt spLoc + 18)
    let w := fun k : Nat => s.wordAt ((s.wordAt spLoc).setWidth 15 - BitVec.ofNat 15 k)
    (u.overflows = false → exec .fpsh s = .next (u.next 1)) ∧
    SameOutside s u (spLoc :: s.stackRoom 18) ∧
    exec .fpop s = .next (State.next { s.withWord spLoc (s.wordAt spLoc - 18) with
      fpac := ⟨w 15 ++ w 14 ++ w 13 ++ w 12, w 11 ++ w 10 ++ w 9 ++ w 8, w 7 ++ w 6 ++ w 5 ++ w 4,
        w 3 ++ w 2 ++ w 1 ++ w 0⟩
      fpsr := Fpsr.ofWords (w 17) (w 16) } 1) ∧
    fpBlock s = [Fpsr.word1 s.fpsr, Fpsr.word2 s.fpsr] ++ [0, 1, 2, 3].flatMap fun f : AcNo =>
      [48, 32, 16, 0].map fun k => (s.fpac.get f).extractLsb' k 16

/-- PSH pushes the accumulators from ACS up to ACD, POP pops those from ACS down to ACD; pushes store above the stack
pointer and move it, and nothing else (44_stack R431, R440, R441). -/
def Obligations.PushPop : Prop :=
  ∀ (s : State) (acs acd : AcNo), Supervisor s →
    let words := (List.range ((acd - acs).toNat + 1)).map fun k => s.ac.get (acs + BitVec.ofNat 2 k)
    let u := s.pushedAll words
    (u.overflows = false → exec (.psh acs acd) s = .next (u.next 1)) ∧
    exec (.pop acs acd) s = .next ((s.popDown ((acs - acd).toNat + 1) acs).next 1) ∧
    ∀ ws : List Word, SameOutside s (s.pushedAll ws) (spLoc :: s.stackRoom ws.length) ∧
      (s.pushedAll ws).wordAt spLoc = s.wordAt spLoc + BitVec.ofNat 16 ws.length

/-- POPB undoes the pushing of a return block: where the block does not overlie the stack pointer's own location, it
restores the accumulators, carry, the stack pointer and the program counter that was pushed (44_stack R432, R443). -/
def Obligations.ReturnRestores : Prop :=
  ∀ (s : State) (ret handler : Addr), Supervisor s → spLoc ∉ s.stackRoom 5 →
    ∃ t : State, exec .popb ((s.withBlock ret).goto handler) = .next t ∧ t.ac = s.ac ∧ t.cry = s.cry ∧ t.pc = ret ∧
      t.wordAt spLoc = s.wordAt spLoc ∧ SameOutside s t (spLoc :: s.stackRoom 5)

/-- PSHJ, PSHR, POPJ, POPB, RTN, RSTR with no user enable pending (44_stack R442 to R447). That PSHJ computes E before the
push is the decision D83 of R442 (log 33). -/
def Obligations.StackReturns : Prop :=
  ∀ (s : State) (xa : ExtAddr) (e : Addr), Supervisor s →
    let u := s.pushed (joinWord false (s.pc + 2))
    let b := s.withWord spLoc (s.wordAt fpLoc)
    let sp : Addr := (s.wordAt spLoc).setWidth 15
    let w := fun (t : State) (k : Nat) => t.wordAt (sp - BitVec.ofNat 15 k)
    let s1 := s.withWord sfaLoc (w s 5)
    let s2 := s1.withWord slLoc (w s1 6)
    let s3 := s2.withWord fpLoc (w s2 7)
    let s4 := s3.withWord spLoc (w s3 8)
    (u.overflows = false → exec .pshr s = .next (u.next 1)) ∧
    (u.overflows = false → s.extAt xa = some e → exec (.pshj xa) s = .next (u.goto e)) ∧
    exec .popj s = .next (s.dropped.goto (s.top.setWidth 15)) ∧
    exec .popb s = .next (s.blockPopped.goto (s.top.setWidth 15)) ∧
    exec .rtn s = .next ((b.blockPopped.withWord fpLoc (b.blockPopped.ac.get 3)).goto (b.top.setWidth 15)) ∧
    exec .rstr s =
      .next (State.goto { s4 with cry := (w s 0).msb, ac := ⟨w s 4, w s 3, w s 2, w s 1⟩ } ((w s 0).setWidth 15))

/-- SAVE and MSP within the stack limit (44_stack R448, R449). -/
def Obligations.SaveMsp : Prop :=
  ∀ (s : State) (i : Word) (ac : AcNo), Supervisor s →
    let three := s.pushedAll [s.ac.get 0, s.ac.get 1, s.ac.get 2]
    let u := (three.pushed (three.wordAt fpLoc &&& 0o077777)).pushed (joinWord s.cry ((s.ac.get 3).setWidth 15))
    let sp := u.wordAt spLoc
    let moved := s.wordAt spLoc + s.ac.get ac
    (u.overflows = false →
      exec (.save i) s = .next ((((u.withWord fpLoc sp).withAc 3 sp).withWord spLoc (sp + i)).next 2)) ∧
    (moved.toNat ≤ (s.wordAt slLoc).toNat → exec (.msp ac) s = .next ((s.withWord spLoc moved).next 1))

/-- A stack fault of PSH, PSHR, PSHJ, FPSH, SAVE and MSP: bit 0 of the stack pointer cleared, bit 0 of the stack limit
set, a return block, the handler of location 43 (44_stack R434, R435, R449). The return address is the next instruction;
for PSHJ its target, by the decision D52 of R435 and 60_exceptions R656, E computed before the push by D83 (log 33); for
SAVE the SAVE itself, by the decision of R448 (log 50, PRESUMED). The stack faults of SYC, XOP and XOP1 stand in
TrapCalls, those of VCT in VctResult, and those of the floating-point fault, the MAP fault and the emulator trap where
these end, in FloatEnds, MapFaults and UndefinedWords. -/
def Obligations.StackFaultTaken : Prop :=
  ∀ (s : State) (acs acd ac : AcNo) (xa : ExtAddr) (e t : Addr) (i : Word), Supervisor s →
    let faults := fun (j : Instr) (u : State) (ret : Addr) =>
      (u.stackFaulted ret).pointerEnd sfaLoc = some t → exec j s = .next ((u.stackFaulted ret).goto t)
    let words := (List.range ((acd - acs).toNat + 1)).map fun k => s.ac.get (acs + BitVec.ofNat 2 k)
    let psh := s.pushedAll words
    let pshr := s.pushed (joinWord false (s.pc + 2))
    let fpsh := (s.storedAbove ((s.wordAt spLoc).setWidth 15) (fpBlock s)).withWord spLoc (s.wordAt spLoc + 18)
    let three := s.pushedAll [s.ac.get 0, s.ac.get 1, s.ac.get 2]
    let save := (three.pushed (three.wordAt fpLoc &&& 0o077777)).pushed (joinWord s.cry ((s.ac.get 3).setWidth 15))
    (psh.overflows = true → faults (.psh acs acd) psh (s.pc + 1)) ∧
    (pshr.overflows = true → faults .pshr pshr (s.pc + 1)) ∧
    (pshr.overflows = true → s.extAt xa = some e → faults (.pshj xa) pshr e) ∧
    (fpsh.overflows = true → faults .fpsh fpsh (s.pc + 1)) ∧
    (save.overflows = true → faults (.save i) (save.withWord spLoc (s.wordAt spLoc)) s.pc) ∧
    ((s.wordAt slLoc).toNat < (s.wordAt spLoc + s.ac.get ac).toNat → faults (.msp ac) s s.pc)

/-! ## Program flow -/

/-- JMP, EJMP, JSR, EJSR in supervisor mode (45_program_flow R465 to R468). -/
def Obligations.Jumps : Prop :=
  ∀ (s : State) (sa : ShortAddr) (xa : ExtAddr) (e : Addr), Supervisor s →
    (s.shortAt sa = some e →
      exec (.jmp sa) s = .next (s.goto e) ∧
      exec (.jsr sa) s = .next ((s.withAc 3 (joinWord false (s.pc + 1))).goto e)) ∧
    (s.extAt xa = some e →
      exec (.ejmp xa) s = .next (s.goto e) ∧
      exec (.ejsr xa) s = .next ((s.withAc 3 (joinWord false (s.pc + 2))).goto e))

/-- ISZ, DSZ, EISZ, EDSZ: the word at the effective address up or down by one, the next word skipped where it becomes zero;
every other word and all else stand (45_program_flow R469 to R472). -/
def Obligations.CountSkips : Prop :=
  ∀ (s : State) (sa : ShortAddr) (xa : ExtAddr) (e : Addr), Supervisor s →
    let up := s.wordAt e + 1
    let down := s.wordAt e - 1
    (s.shortAt sa = some e →
      exec (.isz sa) s = .next ((s.withWord e up).nextSkip 1 (decide (up = 0))) ∧
      exec (.dsz sa) s = .next ((s.withWord e down).nextSkip 1 (decide (down = 0)))) ∧
    (s.extAt xa = some e →
      exec (.eisz xa) s = .next ((s.withWord e up).nextSkip 2 (decide (up = 0))) ∧
      exec (.edsz xa) s = .next ((s.withWord e down).nextSkip 2 (decide (down = 0)))) ∧
    ∀ v : Word, SameOutside s (s.withWord e v) [e]

/-- SGE, SGT, CLM, DSPA (45_program_flow R473 to R476). -/
def Obligations.Comparisons : Prop :=
  ∀ (s : State) (acs acd ac : AcNo) (xa : ExtAddr) (e t : Addr),
    let x := (s.ac.get acs).toInt
    let a : Addr := if acs = acd then s.pc + 1 else (s.ac.get acd).setWidth 15
    let n := s.ac.get ac
    let l := s.wordAt (e - 2)
    let w := s.wordAt (e + (n - l).setWidth 15)
    let within := l.toInt ≤ n.toInt ∧ n.toInt ≤ (s.wordAt (e - 1)).toInt
    exec (.sge acs acd) s = .next (s.nextSkip 1 (decide ((s.ac.get acd).toInt ≤ x))) ∧
    exec (.sgt acs acd) s = .next (s.nextSkip 1 (decide ((s.ac.get acd).toInt < x))) ∧
    (Supervisor s → exec (.clm acs acd) s = .next (s.nextSkip (if acs = acd then 3 else 1)
      (decide ((s.wordAt a).toInt ≤ x ∧ x ≤ (s.wordAt (a + 1)).toInt)))) ∧
    (Supervisor s → s.extAt xa = some e →
      (¬ within → exec (.dspa ac xa) s = .next (s.next 2)) ∧
      (within → w = 0o177777 → exec (.dspa ac xa) s = .next (s.next 2)) ∧
      (within → w ≠ 0o177777 → s.wordTarget w = some t → exec (.dspa ac xa) s = .next (s.goto t)))

/-- XCT executes the word in its accumulator at its own address: another instruction as if it stood there; an XCT leaves
the program counter and its word is executed next; BLM and LMP do one item and, with items left, keep the word that was
taken for the next step, which does the next item; the five the manual excludes are refused (45_program_flow R480; the
refusal and the field that keeps the word are the model's choice, log 20; one item a step, log 28). -/
def Obligations.XctResult : Prop :=
  ∀ (s : State) (ac : AcNo) (i : Instr) (rest : List (BitVec 8)), Supervisor s → s.xct = none →
    decode false (bytesOf [s.ac.get ac, s.wordAt (s.pc + 1)]) = .ok (i, rest) →
    let held : State := { s with xct := some (s.ac.get ac) }
    let free := s.runState = .running ∧ s.inputs = [] ∧ s.con.trp = false ∧ interruptDue s = false
    let keeps := fun (before t : State) => if t.pc = before.pc then { t with xct := some (s.ac.get ac) } else t
    (i ∈ [.bam, .cmv, .cmp, .cmt, .ctr] → exec (.xct ac) s = .refused .xctOfRestarting) ∧
    (i ∉ [.bam, .cmv, .cmp, .cmt, .ctr, .blm, .lmp] → (∀ k, i ≠ .xct k) → exec (.xct ac) s = exec i s) ∧
    (i = .blm ∨ i = .lmp →
      (∀ t, exec i s = .next t → exec (.xct ac) s = .next (keeps s t)) ∧
      (free → ∀ t, exec i (countHold false s) = .next t → step held = .next (keeps s t))) ∧
    (∀ k, i = .xct k → exec (.xct ac) s = .next held ∧ (free → step held = exec (.xct k) (countHold false s)))

/-- SYC, XOP, XOP1: the map off for SYC, a return block with the next address, the handler's address through location 2 or
the table of location 44, the saved copies' addresses in AC2 and AC3; where the block overflows the stack, the stack fault
with the handler's address in its return block (45_program_flow R484, R490, R491; 44_stack R435, 60_exceptions R656).
SYC's hold without the one-cycle extension is the decision D84, ignoring bit 0 of location 44 D85, the stack fault's
return address D52 (log 33); the table entry as the first pointer of a chain is the model's choice between 20_memory R117
and R490 (log 55). -/
def Obligations.TrapCalls : Prop :=
  ∀ (s : State) (acs acd : AcNo) (op : BitVec 5) (op1 : BitVec 4) (h t : Addr),
    let off : State := { s with mapOn := false }
    let called := off.withBlock (s.pc + 1)
    let sp : Addr := (s.wordAt spLoc).setWidth 15
    let copies := ((s.withBlock (s.pc + 1)).withAc 2 (joinWord false (sp + 1 + acs.setWidth 15))).withAc 3
      (joinWord false (sp + 1 + acd.setWidth 15))
    let entry := fun n : Nat => (copies.wordAt 0o44).setWidth 15 + BitVec.ofNat 15 n
    let calls := fun (i : Instr) (n : Nat) => copies.pointerEnd (entry n) = some h →
      (copies.overflows = false → exec i s = .next (copies.goto h)) ∧
      (copies.overflows = true → (copies.stackFaulted h).pointerEnd sfaLoc = some t →
        exec i s = .next ((copies.stackFaulted h).goto t))
    (Supervisor off → ¬ (acs = 0 ∧ acd = 0) → called.pointerEnd 2 = some h →
      (called.overflows = false → exec (.syc acs acd) s = .next (State.goto { called with ionHold := .last } h)) ∧
      (called.overflows = true → (called.stackFaulted h).pointerEnd sfaLoc = some t →
        exec (.syc acs acd) s = .next (State.goto { called.stackFaulted h with ionHold := .last } t))) ∧
    (Supervisor off → acs = 0 → acd = 0 → off.pointerEnd 2 = some h →
      exec (.syc acs acd) s = .next (State.goto { off with ionHold := .last } h)) ∧
    (Supervisor s → calls (.xop acs acd op) op.toNat ∧ calls (.xop1 acs acd op1) (op1.toNat + 32))

/-! ## Input and output -/

/-- The generic I/O instructions to an external controller that answers, and to a device code at which nothing answers,
with the flag commands of an ordinary device and the four skip tests (46_io R504 to R515). That NIO ignores its
accumulator field is the decision D40 and that DIS ignores bits 8 and 9 is D41 (log 33); the controller's record is the
model's choice (log 35). -/
def Obligations.ExternalIo : Prop :=
  ∀ (s : State) (ac : AcNo) (f : IoFlag) (t : SkipTest) (d : DevCode),
    ioProtected s = false → isBoard d = false → d ≠ devCpu →
    let v := s.ac.get ac
    (∀ x : ExtDevice, findExt s d = some x →
      exec (.nio ac f d) s = .next ((s.extFlagged d f).next 1) ∧
      exec (.dia ac f d) s = .next (((s.withAc ac x.inA).extFlagged d f).next 1) ∧
      exec (.dib ac f d) s = .next (((s.withAc ac x.inB).extFlagged d f).next 1) ∧
      exec (.dic ac f d) s = .next (((s.withAc ac x.inC).extFlagged d f).next 1) ∧
      exec (.doa ac f d) s = .next (((s.extPut d .a v).extFlagged d f).next 1) ∧
      exec (.dob ac f d) s = .next (((s.extPut d .b v).extFlagged d f).next 1) ∧
      exec (.doc ac f d) s = .next (((s.extPut d .c v).extFlagged d f).next 1) ∧
      exec (.skp t d) s = .next (s.nextSkip 1 (skipTest t x.busy x.done)) ∧
      exec (.dis ac f d) s =
        .next ((s.withAc ac (BitVec.ofBool x.done ++ BitVec.ofBool x.busy ++ x.status)).next 1)) ∧
    (findExt s d = none →
      exec (.nio ac f d) s = .next (s.next 1) ∧
      exec (.dia ac f d) s = .next ((s.withAc ac 0o177777).next 1) ∧
      exec (.dib ac f d) s = .next ((s.withAc ac 0o177777).next 1) ∧
      exec (.dic ac f d) s = .next ((s.withAc ac 0o177777).next 1) ∧
      exec (.doa ac f d) s = .next (s.next 1) ∧ exec (.dob ac f d) s = .next (s.next 1) ∧
      exec (.doc ac f d) s = .next (s.next 1) ∧
      exec (.skp t d) s = .next (s.nextSkip 1 (skipTest t false false)) ∧
      exec (.dis ac f d) s = .next ((s.withAc ac 0o037777).next 1)) ∧
    (∀ x : ExtDevice, extCommand .none x = x ∧ extCommand .start x = { x with busy := true, done := false } ∧
      extCommand .clear x = { x with busy := false, done := false } ∧ extCommand .pulse x = x ∧
      putBuffer .a v x = { x with outA := v } ∧ putBuffer .b v x = { x with outB := v } ∧
      putBuffer .c v x = { x with outC := v }) ∧
    ∀ busy done : Bool, skipTest .bn busy done = busy ∧ skipTest .bz busy done = !busy ∧
      skipTest .dn busy done = done ∧ skipTest .dz busy done = !done

/-- The instructions of the processor board's devices, each with its flag command, written out for each device: the
transfer first, then the flags of the device and nothing else; SKP and DIS, and the transfers to and from buffers that
no rule describes (46_io R505, R514, R515, R545 to R558, 47_map R570). ERCC's registers with no error outstanding, and
the APL register's reserved bits, are any value. The zeros in bits 0 to 7 of DIA TTI are the decision D47 and the APL
instructions D49 (log 33); that NIOS TTO sends nothing is the model's choice (log 43), and so is the run light as a
level (log 44). That NIO ignores its accumulator field is the decision D40, that DIS ignores bits 8 and 9 D41, that the
MAP's Busy and Done are zero D20 (log 33), and TTI's Clear the resolution of a conflict in R545 (90_conflicts C33); what
an undescribed buffer gives, any value, and takes, nothing, is the model's choice (log 34). -/
def Obligations.BoardDevices : Prop :=
  ∀ (s : State) (ac : AcNo) (f : IoFlag), ioProtected s = false →
    let v := s.ac.get ac
    let ercc : State := { s with ercc := erccCommand f s.ercc }
    exec (.diaTti ac f) s =
      .next (State.next { s.withAc ac (s.tti.rbuf.setWidth 16) with tti := ttiCommand f s.tti } 1) ∧
    exec (.doaTto ac f) s = .next (State.next { s with
      tto := ttoCommand f { s.tto with tbuf := v.extractLsb' 0 8 }
      outputs := if f = .start then .ttoChar (v.extractLsb' 0 8) :: s.outputs else s.outputs } 1) ∧
    exec (.doaRtc ac f) s = .next (State.next { s with rtc := rtcCommand f { s.rtc with fs := v.extractLsb' 0 2 } } 1) ∧
    exec (.diaPit ac f) s = .next (State.next { s.withAc ac s.pit.cnt with pit := pitCommand f s.pit } 1) ∧
    exec (.doaPit ac f) s = .next (State.next { s with pit := pitCommand f { s.pit with icr := v } } 1) ∧
    exec (.doaErcc ac f) s =
      .next (State.next { s with ercc := erccCommand f { s.ercc with mode := v.extractLsb' 0 3 } } 1) ∧
    (s.ercc.done = true →
      exec (.diaErcc ac f) s = .next ((ercc.withAc ac (s.ercc.faultAddr.extractLsb' 0 16)).next 1) ∧
      exec (.dibErcc ac f) s = .next ((ercc.withAc ac
        (s.ercc.faultCode ++ (0 : BitVec 6) ++ s.ercc.faultAddr.extractLsb' 16 4)).next 1)) ∧
    (s.ercc.done = false →
      (∃ w : Word, exec (.diaErcc ac f) s = .next (State.next { ercc.withAc ac w with freeIdx := s.freeIdx + 1 } 1)) ∧
      (∃ w : Word, w &&& 0x03F0 = 0 ∧
        exec (.dibErcc ac f) s = .next (State.next { ercc.withAc ac w with freeIdx := s.freeIdx + 2 } 1))) ∧
    (∃ r : BitVec 7, exec (.diaApl ac f) s = .next (State.next { s.withAc ac (BitVec.ofBool s.cfg.aplDch ++
      BitVec.ofBool s.cfg.locked ++ BitVec.ofBool s.cfg.aplDly ++ r ++ s.cfg.aplCode) with
        freeIdx := s.freeIdx + 1 } 1)) ∧
    exec (.doaApl ac f) s = .next (State.next { s with runLight := v.getLsbD 0 } 1) ∧
    exec (.nio ac f devTti) s = .next (State.next { s with tti := ttiCommand f s.tti } 1) ∧
    exec (.nio ac f devTto) s = .next (State.next { s with tto := ttoCommand f s.tto } 1) ∧
    exec (.nio ac f devRtc) s = .next (State.next { s with rtc := rtcCommand f s.rtc } 1) ∧
    exec (.nio ac f devPit) s = .next (State.next { s with pit := pitCommand f s.pit } 1) ∧
    exec (.nio ac f devErcc) s = .next (ercc.next 1) ∧
    exec (.nio ac f devApl) s = .next (s.next 1) ∧
    (∀ (t : SkipTest) (d : DevCode) (busy done : Bool),
      (d, busy, done) ∈ [(devTti, s.tti.busy, s.tti.done), (devTto, s.tto.busy, s.tto.done),
        (devRtc, s.rtc.busy, s.rtc.done), (devPit, s.pit.busy, s.pit.done), (devErcc, false, s.ercc.done),
        (devMap, false, false), (devApl, false, false)] →
      exec (.skp t d) s = .next (s.nextSkip 1 (skipTest t busy done)) ∧
      (d ≠ devMap → exec (.dis ac f d) s =
        .next ((s.withAc ac (BitVec.ofBool done ++ BitVec.ofBool busy ++ (0x3FFF : BitVec 14))).next 1))) ∧
    (∀ d : DevCode, d ∈ [devTti, devTto, devRtc, devPit, devErcc, devApl] →
      let flagged := fun u : State =>
        if d = devTti then { u with tti := ttiCommand f u.tti }
        else if d = devTto then { u with tto := ttoCommand f u.tto }
        else if d = devRtc then { u with rtc := rtcCommand f u.rtc }
        else if d = devPit then { u with pit := pitCommand f u.pit }
        else if d = devErcc then { u with ercc := erccCommand f u.ercc }
        else u
      let reads := fun i : Instr => i.wf = true → ∃ w : Word,
        exec i s = .next (State.next (flagged { s.withAc ac w with freeIdx := s.freeIdx + 1 }) 1)
      let writes := fun i : Instr => i.wf = true → exec i s = .next ((flagged s).next 1)
      reads (.dia ac f d) ∧ reads (.dib ac f d) ∧ reads (.dic ac f d) ∧
      writes (.doa ac f d) ∧ writes (.dob ac f d) ∧ writes (.doc ac f d)) ∧
    (∀ x : Tti, ttiCommand .none x = x ∧ ttiCommand .pulse x = { x with brk := false } ∧
      ttiCommand .start x = { x with busy := true, done := false, overrun := false, parity := false } ∧
      ttiCommand .clear x = { x with busy := false, done := false, overrun := false, parity := false }) ∧
    (∀ x : Tto, ttoCommand .none x = x ∧ ttoCommand .pulse x = x ∧
      ttoCommand .start x = { x with busy := true, done := false } ∧
      ttoCommand .clear x = { x with busy := false, done := false }) ∧
    (∀ x : Rtc, rtcCommand .none x = x ∧ rtcCommand .pulse x = x ∧
      rtcCommand .start x = { x with busy := true, done := false } ∧
      rtcCommand .clear x = { x with busy := false, done := false }) ∧
    (∀ x : Pit, pitCommand .none x = x ∧ pitCommand .pulse x = x ∧
      pitCommand .start x = { x with busy := true, done := false, cnt := x.icr } ∧
      pitCommand .clear x = { x with busy := false, done := false }) ∧
    ∀ x : Ercc, erccCommand .none x = x ∧ erccCommand .clear x = x ∧ erccCommand .pulse x = x ∧
      erccCommand .start x = { x with done := false, irq := false }

/-- What happens to the machine without an instruction of its own, each a host input between two instructions: a received
character, a sent one, a clock tick, a timer tick, the power-fail signal, a word of memory going bad, a refresh, a data
channel transfer, through its map where data channel mapping is on (46_io R516, R545, R547, R549, R551, R554; 47_map R590;
60_exceptions R658). An error in one bit has the fault code of that bit, one in two bits a code for two bits or one of the
two lost rows (R557). Then what an instruction makes of a bad word, which it reads with the bit its code names corrected
or as it stands, the error recorded where reads are checked and the check finds it, and of a write to it, which mends it
where check codes are written and else leaves it in error where it differs from the word its check code belongs to, and of
the data channel, whose transfers fall before each of its references, ISZ holding the bus between its two and BTO not
(46_io R554, R555; 60_exceptions R625, R671; 20_memory R141). The timer going on with Busy one is the decision D48 of
R551, the data channel and page 31 D26 (log 33); when an error is recorded, what an uncorrectable one delivers, which of
several codes an error has and what a write without a check code leaves is log 45, how transfers are given log 48, that
they leave the single-cycle bit log 57. -/
def Obligations.DeviceEvents : Prop :=
  (∀ (s : State) (c : BitVec 8) (rest : List HostInput), s.runState = .running →
    let after := fun (e : HostInput) (t : State) => step { s with inputs := e :: rest } = .next { t with inputs := rest }
    after (.ttiChar c) { s with tti := { s.tti with
      rbuf := c, busy := false, done := true, overrun := s.tti.overrun || s.tti.done } } ∧
    after .ttoSent { s with tto := { s.tto with busy := false, done := true } } ∧
    (s.rtc.busy = true → after .rtcTick { s with rtc := { s.rtc with busy := false, done := true } }) ∧
    (s.rtc.busy = false → after .rtcTick s) ∧
    (s.pit.busy = true → s.pit.cnt = 0o177777 →
      after .pitTick { s with pit := { s.pit with done := true, cnt := s.pit.icr } }) ∧
    (s.pit.busy = true → s.pit.cnt ≠ 0o177777 → after .pitTick { s with pit := { s.pit with cnt := s.pit.cnt + 1 } }) ∧
    (s.pit.busy = false → after .pitTick s) ∧
    after .powerFailing { s with pf := true }) ∧
  (∀ (s : State) (rest : List HostInput) (addr : BitVec 20) (data : Word) (check : BitVec 6) (map : AcNo) (a : Addr)
      (v : Word), s.runState = .running →
    let after := fun (e : HostInput) (t : State) => step { s with inputs := e :: rest } = .next { t with inputs := rest }
    let entry := PageMap.entry (s.dmap.get map) (a.extractLsb' 10 5)
    let pa := if s.ms.dch then entry.ppage.toNat * 1024 + a.toNat % 1024 else a.toNat
    let others := s.memFaults.filter fun g => decide (g.addr.toNat ≠ addr.toNat)
    (addr.toNat < s.cfg.boards.words →
      (data = 0 ∧ check = 0 → after (.memError addr data check) { s with memFaults := others }) ∧
      (¬(data = 0 ∧ check = 0) → ∃ code : BitVec 6, FaultCodeRight data check code ∧
        after (.memError addr data check) { s with
          memFaults := ⟨addr, data, check, code⟩ :: others, freeIdx := s.freeIdx + 1 })) ∧
    (s.cfg.boards.words ≤ addr.toNat → after (.memError addr data check) s) ∧
    (s.ercc.mode.getLsbD 2 = false → ∃ m : List Host.Cell,
      after .sniffed { s with
        mem := m, memFaults := s.memFaults.filter fun g => decide (g.code ∉ dataCodes ++ checkCodes) } ∧
      (∀ p : Nat, (∀ g ∈ s.memFaults, g.addr.toNat ≠ p) → Memory.readWord m p = Memory.readWord s.mem p) ∧
      ∀ g : MemFault, s.memFaults = [g] →
        (∀ n : Nat, n < 16 → g.code = dataCodes.getD n 0 → Memory.readWord m g.addr.toNat =
          Memory.readWord s.mem g.addr.toNat ^^^ g.data ^^^ (0x8000#16 >>> n)) ∧
        (g.code ∈ checkCodes → Memory.readWord m g.addr.toNat = Memory.readWord s.mem g.addr.toNat ^^^ g.data) ∧
        (g.code ∉ dataCodes ++ checkCodes → m = s.mem)) ∧
    (s.ercc.mode.getLsbD 2 = true → after .sniffed s) ∧
    (pa < s.cfg.boards.words →
      (s.ercc.mode ∉ [1, 5] →
        after (.dch (.write map a v)) { s with
          mem := Memory.writeWord s.mem pa v,
          memFaults := s.memFaults.filter fun g => decide (g.addr.toNat ≠ pa) }) ∧
      ((∀ g ∈ s.memFaults, g.addr.toNat ≠ pa) →
        after (.dch (.write map a v)) { s with mem := Memory.writeWord s.mem pa v } ∧
        after (.dch (.read map a)) { s with outputs := .dchData (Memory.readWord s.mem pa) :: s.outputs })) ∧
    (s.cfg.boards.words ≤ pa →
      after (.dch (.write map a v)) s ∧
      ∃ w : Word, after (.dch (.read map a)) { s with
        outputs := .dchData w :: s.outputs, freeIdx := s.freeIdx + 1 })) ∧
  (∀ (s : State) (f : MemFault) (ac : AcNo) (ea : ShortAddr), Supervisor s → ea.ind = false →
    f.addr.toNat = (shortIa s ea).toNat →
    let bad : State := { s with memFaults := [f] }
    let checks := s.ercc.mode.getLsbD 1
    let enabled := s.ercc.mode.getLsbD 1 && s.ercc.mode.getLsbD 0
    let recorded := { s.ercc with
      faultAddr := f.addr, faultCode := f.code, done := s.ercc.done || enabled, irq := s.ercc.irq || enabled }
    let e := shortIa s ea
    let raw := s.wordAt e ^^^ f.data
    let v := s.ac.get ac
    (∀ n : Nat, n < 16 → checks = true → f.code = dataCodes.getD n 0 → exec (.lda ac ea) bad =
      .next (State.next { (s.withWord e (raw ^^^ (0x8000#16 >>> n))).withAc ac (raw ^^^ (0x8000#16 >>> n)) with
        ercc := recorded, memFaults := [] } 1)) ∧
    (checks = true → f.code ∈ checkCodes → exec (.lda ac ea) bad =
      .next (State.next { (s.withWord e raw).withAc ac raw with ercc := recorded, memFaults := [] } 1)) ∧
    (checks = true → f.code ∉ 0 :: dataCodes ++ checkCodes → exec (.lda ac ea) bad =
      .next (State.next { bad.withAc ac raw with ercc := recorded } 1)) ∧
    (checks = false ∨ f.code = 0 → exec (.lda ac ea) bad = .next ((bad.withAc ac raw).next 1)) ∧
    (s.ercc.mode ∉ [1, 5] → exec (.sta ac ea) bad = .next ((s.withWord e v).next 1)) ∧
    (s.ercc.mode ∈ [1, 5] → v = raw → exec (.sta ac ea) bad = .next (bad.next 1)) ∧
    (s.ercc.mode ∈ [1, 5] → v ≠ raw → v = s.wordAt e → f.check = 0 → exec (.sta ac ea) bad = .next (s.next 1)) ∧
    (s.ercc.mode ∈ [1, 5] → v ≠ raw → ¬(v = s.wordAt e ∧ f.check = 0) → ∃ code : BitVec 6,
      FaultCodeRight (v ^^^ s.wordAt e) f.check code ∧ exec (.sta ac ea) bad = .next (State.next { s with
        memFaults := [⟨f.addr, v ^^^ s.wordAt e, f.check, code⟩], freeIdx := s.freeIdx + 1 } 1)) ∧
    exec (.sta ac ea) s = .next ((s.withWord e v).next 1) ∧
    (requesting s devErcc = true ↔ s.ercc.done = true ∧ enabled = true)) ∧
  (∀ (s : State) (ac acs acd : AcNo) (ea : ShortAddr) (map : AcNo) (a b : Addr) (v w : Word)
      (due : List (List DchRequest)),
    Supervisor s → s.ms.dch = false → ea.ind = false → s.bitPlace acs acd = some (shortIa s ea) →
    (acs = acd ∨ (s.ac.get acs).msb = false) →
    let one := s.withWord a v
    let given := fun l : List (List DchRequest) => ({ s with dchDue := l } : State)
    let left := fun (u : State) (l : List (List DchRequest)) => ({ u with dchDue := l } : State)
    let e := shortIa s ea
    let k := bitNumber (s.ac.get acd)
    exec (.lda ac ea) (given ([.write map a v] :: due)) = .next (left ((one.withAc ac (one.wordAt e)).next 1) due) ∧
    exec (.isz ea) (given ([.write map a v] :: [.write map b w] :: due)) =
      .next (left ((one.withWord e (one.wordAt e + 1)).nextSkip 1 (decide (one.wordAt e + 1 = 0)))
        ([.write map b w] :: due)) ∧
    exec (.szbo acs acd) (given ([.write map a v] :: [.write map b w] :: due)) =
      .next (left ((one.withWord e (one.wordAt e ||| bitMask k)).nextSkip 1 (!(one.wordAt e).getMsbD k.toNat))
        ([.write map b w] :: due)) ∧
    exec (.bto acs acd) (given ([.write map a v] :: [.write map b w] :: due)) =
      .next (left (((one.withWord b w).withWord e (one.wordAt e ||| bitMask k)).next 1) due))

/-- The instructions of the CPU device (46_io R520 to R531): f after the transfer; what each reads or writes; the sixteen
bits of the status word and the two halts written out. The bits 9 and 14 that DIS CPU delivers are any value, its memory
type for three boards any of the listed codes (log 40). That INTEN, INTDS and NIO ignore their accumulator field is the
decision D40, that DOAP ignores its accumulator D44, that DIS ignores bits 8 and 9 D41 (log 33); the refusal of DOAP with
bit 15 set is log 21, and that a halt into the console clears the power-fail flag log 52. -/
def Obligations.CpuDevice : Prop :=
  ∀ (s : State) (ac : AcNo) (f : IoFlag) (t : SkipTest), ioProtected s = false →
    let v := s.ac.get ac
    let start := fun u : State => ({ u with ion := true, ionHold := if u.ion then u.ionHold else .held } : State)
    let clear := fun u : State => ({ u with ion := false } : State)
    let pulse := fun u : State => ({ u with con := ⟨false, false, false, false, false, false⟩ } : State)
    let flag := fun u : State => if f = .start then start u else if f = .clear then clear u
      else if f = .pulse then pulse u else u
    exec (.inten ac) s = .next ((start s).next 1) ∧
    exec (.intds ac) s = .next ((clear s).next 1) ∧
    exec (.nioCpu ac f) s = .next ((flag s).next 1) ∧
    exec (.reads ac f) s = .next ((flag (s.withAc ac s.vcr)).next 1) ∧
    exec (.doaCpu ac f) s = .next ((flag s).next 1) ∧
    (v.getLsbD 0 = false → exec (.doapCpu ac) s = .next ((pulse s).next 1)) ∧
    (v.getLsbD 0 = true → exec (.doapCpu ac) s = .refused .doapDiagnosticBit) ∧
    exec (.inta ac f) s = .next ((flag (s.withAc ac (0x3FF#10 ++ ackCode s))).next 1) ∧
    exec (.msko ac f) s = .next ((flag { s with mask := v }).next 1) ∧
    exec (.iorst ac f) s = .next ((flag (ioReset s)).next 1) ∧
    exec (.halta ac f) s = .next (haltWith ((flag s).next 1)) ∧
    exec (.skpCpu t) s = .next (s.nextSkip 1 (skipTest t s.ion s.pf)) ∧
    (∃ b9 b14 : BitVec 1, exec (.disCpu ac f) s =
      .next (State.next { s.withAc ac (cpuStat s b9 b14) with freeIdx := s.freeIdx + 2 } 1)) ∧
    (∀ b9 b14 : BitVec 1,
      let w := cpuStat s b9 b14
      (w.getMsbD 0, w.getMsbD 1, w.getMsbD 2, w.getMsbD 3) = (s.pf, s.ion, true, s.con.brk) ∧
      (w.getMsbD 4, w.getMsbD 5, w.getMsbD 6, w.getMsbD 7) = (s.con.pup, s.con.hlt, s.cfg.haltDispatch, irq s) ∧
      (w.getMsbD 8, w.extractLsb' 6 1, w.getMsbD 10, w.getMsbD 11) = (s.con.pl, b9, s.con.trp, s.survived) ∧
      (w.extractLsb' 1 1, w.getMsbD 15) = (b14, s.con.dg) ∧
      (s.cfg.boards = .one → w.extractLsb' 2 2 = 2) ∧ (s.cfg.boards = .two → w.extractLsb' 2 2 = 1) ∧
      (s.cfg.boards = .four → w.extractLsb' 2 2 = 3) ∧ (s.cfg.boards = .three → w.extractLsb' 2 2 ∈ [1, 2, 3])) ∧
    (s.cfg.haltDispatch = false → haltWith s = { s with con := { s.con with hlt := true }, runState := .halted }) ∧
    (s.cfg.haltDispatch = true → haltWith s = { s with
      con := { s.con with hlt := true }, runState := .console, runLight := false, xct := none, pf := false })

/-- The I/O reset: the mask, every Busy and Done, the receiver's Break flag, the clock's frequency, the timer's two
registers, the map's mode, pending, fault and single-cycle bits and page 31; ION, memory, the accumulators, the maps
themselves and the page check stand (46_io R526, R545, R551, 47_map R600). That MAP status bits 6 to 12 stand is the
decision D32 of R600 on a conflict (90_conflicts C27; log 33). -/
def Obligations.IoResetEffect : Prop :=
  ∀ s : State,
    let t := ioReset s
    t.mask = 0 ∧ (t.tti.busy, t.tti.done, t.tto.busy, t.tto.done) = (false, false, false, false) ∧
    (t.rtc.busy, t.rtc.done, t.rtc.fs) = (false, false, 0) ∧ t.pit = ⟨false, false, 0, 0⟩ ∧ t.tti.brk = false ∧
    t.ercc.done = false ∧ erccEnabled t.ercc = false ∧ (∀ x ∈ t.ext, x.busy = false ∧ x.done = false) ∧
    t.mapOn = false ∧ t.mapPending = false ∧ t.scPending = false ∧
    (t.ms.fIo, t.ms.fWp, t.ms.fInd, t.ms.sc) = (false, false, false, false) ∧ t.pchk = s.pchk ∧
    t.p31 = 31 ∧ t.ms.nme = 0 ∧ t.ms.dch = false ∧ t.ms.ue = false ∧
    t.ms.um = false ∧ (t.ms.mapsel, t.ms.lef, t.ms.iop, t.ms.wpe, t.ms.indp) =
      (s.ms.mapsel, s.ms.lef, s.ms.iop, s.ms.wpe, s.ms.indp) ∧
    t.ion = s.ion ∧ t.pf = s.pf ∧ t.mem = s.mem ∧ t.ac = s.ac ∧ t.cry = s.cry ∧ t.pc = s.pc ∧ t.fpac = s.fpac ∧
    t.fpsr = s.fpsr ∧ t.umap = s.umap ∧ t.dmap = s.dmap

/-- What an interrupt acknowledge finds: the requesting device first in the order of priority, 77 octal where none
requests (46_io R524, 60_exceptions R622, R624; the 77 is the decision D43, log 36). The rule's order is total; the
clause on the least code where no listed device requests is the model's own completion of a list that is not (log 36).
Then which device requests: power fail, ERCC and the devices of the board by name, an external controller by the mask
bit of its row or its footnote (46_io R517, R525, R559, 60_exceptions R622); the controller's record is the model's
choice (log 35). -/
def Obligations.AckCode : Prop :=
  ∀ s : State,
    (irq s = true → requesting s (ackCode s) = true) ∧ (irq s = false → ackCode s = 0o77) ∧
    (∀ (before after : List DevCode) (d : DevCode), s.cfg.intPriority = before ++ d :: after →
      (∀ x ∈ before, requesting s x = false) → requesting s d = true → ackCode s = d) ∧
    (∀ d : DevCode, (∀ x ∈ s.cfg.intPriority, requesting s x = false) → requesting s d = true →
      (ackCode s).toNat ≤ d.toNat) ∧
    (irq s = true ↔ ∃ d : DevCode, requesting s d = true) ∧
    (requesting s 0 = s.pf ∧
      requesting s devErcc = (s.ercc.done && s.ercc.mode.getLsbD 1 && s.ercc.mode.getLsbD 0) ∧
      requesting s devTti = (s.tti.done && !s.mask.getMsbD 14) ∧
      requesting s devTto = (s.tto.done && !s.mask.getMsbD 15) ∧
      requesting s devRtc = (s.rtc.done && !s.mask.getMsbD 13) ∧
      requesting s devPit = (s.pit.done && !s.mask.getMsbD 6) ∧
      requesting s devApl = false ∧ requesting s devMap = false ∧ requesting s devCpu = false) ∧
    (∀ d : DevCode, isBoard d = false → d ≠ devCpu → d ≠ 0 →
      (findExt s d = none → requesting s d = false) ∧
      ∀ x : ExtDevice, findExt s d = some x →
        (maskBit x = none → requesting s d = x.done) ∧
        ∀ b : BitVec 4, maskBit x = some b → requesting s d = (x.done && !s.mask.getMsbD b.toNat)) ∧
    (∀ x : ExtDevice,
      (x.kind = .listed → maskBit x = listedBit x.code) ∧ (x.kind = .cas → maskBit x = some 10) ∧
      (x.kind = .mx1 → maskBit x = some 11) ∧ (x.kind = .dpi ∨ x.kind = .dpo → maskBit x = some 8) ∧
      (x.kind = .dcu → maskBit x = some 4) ∧ (x.kind = .iop false → maskBit x = some 5) ∧
      (x.kind = .iop true → maskBit x = none) ∧ ∀ b : Option (BitVec 4), x.kind = .other b → maskBit x = b) ∧
    ∀ d : DevCode, listedBit d = List.lookup d
      [(0o06, 12), (0o07, 12), (0o12, 11), (0o13, 13), (0o15, 12), (0o16, 10), (0o17, 12), (0o21, 9), (0o22, 10),
        (0o24, 0), (0o26, 9), (0o30, 14), (0o31, 13), (0o32, 13), (0o35, 11), (0o36, 6), (0o37, 6), (0o40, 8),
        (0o41, 8), (0o42, 7), (0o44, 12), (0o46, 12), (0o47, 12), (0o50, 14), (0o51, 15), (0o52, 11), (0o54, 13),
        (0o55, 12), (0o56, 10), (0o57, 12), (0o61, 9), (0o62, 10), (0o65, 5), (0o66, 9), (0o67, 7), (0o70, 14),
        (0o73, 7), (0o74, 10)]

/-- VCT in its modes A to E, in supervisor mode; where its pushes overflow the stack, the stack fault with the handler's
address in its return block (46_io R540 to R543, 44_stack R435). That location 41 stands under a stack change is the
decision D45 of R542, the stack fault's return address D52, and that the check and the fault use the limit and the fault
address in force after the pushes D46 of R543 (log 33). -/
def Obligations.VctResult : Prop :=
  ∀ (s : State) (change : Bool) (table t : Addr), Supervisor s →
    let s0 : State := { s with con := ⟨false, false, false, false, false, false⟩ }
    let ent := s.wordAt (table + (ackCode s).setWidth 15)
    let dct : Addr := ent.setWidth 15
    let w0 := s.wordAt dct
    let w1 := s.wordAt (dct + 1)
    let newStack := (((s0.withWord spLoc (s.wordAt 4)).withWord slLoc (s.wordAt 6)).withWord sfaLoc (s.wordAt 7)).pushedAll
      [s.wordAt spLoc, s.wordAt fpLoc, s.wordAt slLoc, s.wordAt sfaLoc]
    let s1 := if change then newStack else s0
    let acs := s1.pushedAll [s.ac.get 0, s.ac.get 1, s.ac.get 2, s.ac.get 3]
    let s2 := if w0.msb then acs.pushed (joinWord s.cry ((acs.wordAt 0).setWidth 15)) else s1
    let m := s2.wordAt 5
    let s3 : State := { (s2.pushed m).withWord 5 (m ||| w1) with
      mask := m ||| w1, ion := true, ionHold := if s.ion then s.ionHold else .held }
    (ent.msb = false → exec (.vct change table) s = .next (s0.goto dct)) ∧
    (ent.msb = true → s3.overflows = false → exec (.vct change table) s = .next (s3.goto (w0.setWidth 15))) ∧
    (ent.msb = true → s3.overflows = true → (s3.stackFaulted (w0.setWidth 15)).pointerEnd sfaLoc = some t →
      exec (.vct change table) s = .next ((s3.stackFaulted (w0.setWidth 15)).goto t))

/-! ## The MAP -/

/-- The instructions of the MAP's device code: P turns the map off from mapped mode and awaits a single cycle from
unmapped mode; what each reads or writes, the status word bit by bit, read and loaded, and the maps a select code names
(47_map R573, R593 to R599). DIB and DIS deliver any value. That DOA MAP turns a running map off is the decision D27
and, for a user enable, log 22; DOB in mapped mode is D29, the zeros in bits 4 and 5 of DIC D30, that f is of no effect
but for P D20, that NIO and NIOP ignore their accumulator field D40, and that DIS ignores bits 8 and 9 and takes no flag
action D41 (log 33). -/
def Obligations.MapDevice : Prop :=
  ∀ (s : State) (ac : AcNo) (f : IoFlag), ioProtected s = false →
    let v := s.ac.get ac
    let e := selEntry s s.ms.mapsel s.pchk
    let w := statusImage s
    let m := loadStatus s.ms v
    exec (.diaMap ac f) s = .next (((s.withAc ac (statusImage s)).mapFlagged f).next 1) ∧
    exec (.doaMap ac f) s = .next ((State.mapFlagged { s with
      ms := loadStatus s.ms v, mapPending := v.getLsbD 0, mapOn := false } f).next 1) ∧
    exec (.dobMap ac f) s = .next ((State.mapFlagged { s with p31 := v.extractLsb' 0 10 } f).next 1) ∧
    exec (.dicMap ac f) s = .next (((s.withAc ac
      (BitVec.ofBool e.wp ++ s.ms.mapsel ++ (0 : BitVec 2) ++ e.ppage)).mapFlagged f).next 1) ∧
    exec (.docMap ac f) s = .next ((State.mapFlagged { s with
      pchk := v.extractLsb' 10 5, ms := { s.ms with mapsel := v.extractLsb' 7 3 } } f).next 1) ∧
    exec (.niopMap ac) s =
      .next ((if s.mapOn then ({ s with mapOn := false } : State) else { s with scPending := true }).next 1) ∧
    (f ≠ .pulse → exec (.nioMap ac f) s = .next (s.next 1)) ∧
    (∃ x : Word, exec (.dibMap ac f) s =
      .next ((State.mapFlagged { s.withAc ac x with freeIdx := s.freeIdx + 1 } f).next 1)) ∧
    (∃ x : Word, exec (.disMap ac f) s = .next (State.next { s.withAc ac x with freeIdx := s.freeIdx + 1 } 1)) ∧
    ((w.getMsbD 0, w.getMsbD 1, w.getMsbD 2, w.getMsbD 3, w.getMsbD 4, w.getMsbD 5) =
        (s.ms.nme.getLsbD 1, s.mapOn, s.ms.fIo, s.ms.fWp, s.ms.fInd, s.ms.sc) ∧
      w.extractLsb' 7 3 = s.ms.mapsel ∧
      (w.getMsbD 9, w.getMsbD 10, w.getMsbD 11, w.getMsbD 12) = (s.ms.lef, s.ms.iop, s.ms.wpe, s.ms.indp) ∧
      (w.getMsbD 13, w.getMsbD 14, w.getMsbD 15) = (s.ms.nme.getLsbD 0, s.ms.dch, s.ms.um)) ∧
    ((m.nme.getLsbD 1, m.nme.getLsbD 0) = (v.getMsbD 0, v.getMsbD 13) ∧ m.mapsel = v.extractLsb' 7 3 ∧
      (m.lef, m.iop, m.wpe, m.indp) = (v.getMsbD 9, v.getMsbD 10, v.getMsbD 11, v.getMsbD 12) ∧
      (m.dch, m.ue) = (v.getMsbD 14, v.getMsbD 15) ∧
      (m.fIo, m.fWp, m.fInd, m.sc, m.um) = (s.ms.fIo, s.ms.fWp, s.ms.fInd, s.ms.sc, s.ms.um)) ∧
    ∀ p : BitVec 5,
      [0, 1, 2, 3, 4, 5, 6, 7].map (fun c : BitVec 3 => selEntry s c p) =
        [s.umap.q0, s.umap.q2, s.umap.q1, s.umap.q3, s.dmap.q0, s.dmap.q2, s.dmap.q1, s.dmap.q3].map
          fun m => PageMap.entry m p

/-- LMP, one word or the end: the entry of the selected map, AC1 down, AC2 up; where AC0 is neither 0 nor 3 the entry is
any value; and what the loading of an entry leaves of the eight maps (47_map R572, R573, R591). One word a step with the
program counter unchanged until the last is log 28 (D73, log 33); that with another AC0 only the addressed entry is
free, and the rest as the rule says, is the model's choice (log 14). The step after which AC2 would leave the address
space is not part of the statement. -/
def Obligations.LmpResult : Prop :=
  (∀ (s : State) (c c' : BitVec 3) (p p' : BitVec 5) (e : MapEntry),
    let t := setSelEntry s c p e
    selEntry t c' p' = (if c' = c ∧ p' = p then e else selEntry s c' p') ∧ { t with umap := s.umap, dmap := s.dmap } = s) ∧
  ∀ (s : State) (a : Addr), Supervisor s → s.wordTarget (s.ac.get 2) = some a →
    let n := s.ac.get 1
    let w := s.wordAt a
    let counted := fun (u : State) => ({ u with ac := ⟨s.ac.get 0, n - 1, joinWord false a + 1, s.ac.get 3⟩ } : State)
    let done := fun (e : MapEntry) => counted (setSelEntry s s.ms.mapsel (w.extractLsb' 10 5) e)
    let ends := fun (t : State) => if n = 1 then t.next 1 else t
    (n = 0 → exec .lmp s = .next ((s.withAc 2 (joinWord false a)).next 1)) ∧
    (n ≠ 0 → (n = 1 ∨ a ≠ 0o77777) → (s.ac.get 0 = 0 ∨ s.ac.get 0 = 3) →
      exec .lmp s = .next (ends (done ⟨w.msb, w.extractLsb' 0 10⟩))) ∧
    (n ≠ 0 → (n = 1 ∨ a ≠ 0o77777) → s.ac.get 0 ≠ 0 → s.ac.get 0 ≠ 3 →
      ∃ e : MapEntry, exec .lmp s = .next (ends { done e with freeIdx := s.freeIdx + 2 }))

/-- In user mode LDA, STA, ELDA and ESTA, their chains too, go through the user map; in unmapped mode after NIOP MAP the
first reference of the next of them does, once: the operand's of a direct one, the first pointer's of an indirect one,
whose further pointers and operand are unmapped; a read of an invalid page is then any value and a write to an invalid
or protected page is discarded (47_map R576, R578, R598). First the translation itself: the entry of the selected map,
its physical address, validity and protection, and an unmapped reference through the page-31 register or beyond memory
(47_map R572, R574 to R578, R581). That an ordinary mapped reference clears the single-cycle bit is the decision D28 of
R594, the discarded write to a protected page D31 (log 33); that the bit is set with an invalid page too is log 27. -/
def Obligations.MappedReferences : Prop :=
  (∀ (s : State) (a : Addr) (e : MapEntry),
    (s.umap.get s.ms.nme).toList[a.toNat / 1024]? = some (userEntry s a) ∧
    [0, 1, 2, 3].map (fun n : AcNo => s.umap.get n) = [s.umap.q0, s.umap.q1, s.umap.q2, s.umap.q3] ∧
    entryPhys e a = e.ppage.toNat * 1024 + a.toNat % 1024 ∧
    (e.invalid = true ↔ e.wp = true ∧ e.ppage = 0o1777) ∧
    (writeProtected s e = true ↔ s.ms.wpe = true ∧ e.wp = true)) ∧
  (∀ (s : State) (ac : AcNo) (xa : ExtAddr),
    s.mapOn = false → s.scPending = false → Quiet s → xa.ind = false →
    let a := (extIa s xa).toNat
    let pa := if a / 1024 = 31 then s.p31.toNat * 1024 + a % 1024 else a
    (pa < s.cfg.boards.words →
      exec (.elda ac xa) s = .next ((s.withAc ac (Memory.readWord s.mem pa)).next 2) ∧
      exec (.esta ac xa) s = .next (State.next { s with mem := Memory.writeWord s.mem pa (s.ac.get ac) } 2)) ∧
    (s.cfg.boards.words ≤ pa →
      (∃ w : Word, exec (.elda ac xa) s = .next (State.next { s.withAc ac w with freeIdx := s.freeIdx + 1 } 2)) ∧
      exec (.esta ac xa) s = .next (s.next 2))) ∧
  ∀ (s : State) (ac : AcNo) (sa : ShortAddr) (xa : ExtAddr), Quiet s →
    let user := fun (ind : Bool) (ia : Addr) (load store : Instr) (len : Nat) => ∀ e : Addr,
      s.mapOn = true → s.scPending = false → (ind = true → s.mapPending = false) → s.mappedAt ind ia = some e →
      s.mapped e = true →
        exec load s = .next ((s.referred.withAc ac (s.mappedWord e)).next len) ∧
        (writeProtected s (userEntry s e) = false → exec store s = .next ((s.withMappedWord e (s.ac.get ac)).next len))
    let direct := fun (ia : Addr) (load store : Instr) (len : Nat) =>
      s.scPending = true → s.mapOn = false →
        ((userEntry s ia).invalid = false → entryPhys (userEntry s ia) ia < s.cfg.boards.words →
          exec load s = .next ((s.singled.withAc ac (s.mappedWord ia)).next len) ∧
          (writeProtected s (userEntry s ia) = false → exec store s = .next (State.next
            { s.singled with mem := Memory.writeWord s.mem (entryPhys (userEntry s ia) ia) (s.ac.get ac) } len))) ∧
        ((userEntry s ia).invalid = true → ∃ w : Word,
          exec load s = .next (State.next { s.singled.withAc ac w with freeIdx := s.freeIdx + 1 } len)) ∧
        ((userEntry s ia).invalid = true ∨ writeProtected s (userEntry s ia) = true →
          exec store s = .next (s.singled.next len))
    let indirect := fun (ia : Addr) (load store : Instr) (len : Nat) => ∀ (n : Nat) (e : Addr),
      s.scPending = true → s.mapOn = false → s.mapPending = false → s.p31 = Config.page31Reset →
      (userEntry s ia).invalid = false → entryPhys (userEntry s ia) ia < s.cfg.boards.words →
      let p := s.mappedWord ia
      n < Config.chainFuel → (if p.msb then s.follow n (p.setWidth 15) else some (p.setWidth 15)) = some e →
        exec load s = .next ((s.singled.withAc ac (s.wordAt e)).next len) ∧
        exec store s = .next ((s.singled.withWord e (s.ac.get ac)).next len)
    user sa.ind (shortIa s sa) (.lda ac sa) (.sta ac sa) 1 ∧ user xa.ind (extIa s xa) (.elda ac xa) (.esta ac xa) 2 ∧
    (sa.ind = false → direct (shortIa s sa) (.lda ac sa) (.sta ac sa) 1) ∧
    (xa.ind = false → direct (extIa s xa) (.elda ac xa) (.esta ac xa) 2) ∧
    (sa.ind = true → indirect (shortIa s sa) (.lda ac sa) (.sta ac sa) 1) ∧
    (xa.ind = true → indirect (extIa s xa) (.elda ac xa) (.esta ac xa) 2)

/-- MAP protection faults: a reference of LDA, STA, ELDA or ESTA to an invalid page, operand or pointer, or a write to a
protected one; the sixteenth pointer of a chain under indirect protection; the fetch of either word of an instruction from
an invalid page; an I/O-format instruction under I/O protection with LEF mode off, LMP under I/O protection. The registers
stand, and the fault handler of location 3 runs unmapped (47_map R577 to R579, R582, R585). The program counter in its
return block is any value (log 25). That LMP's fault is an I/O protection fault is the decision D21, that exactly one
fault bit is left set D23 (log 33); that the map enable is cleared with it is log 46. That a fetch that faults counts as
not one-cycle is log 26, that the fetch of the first word clears the single-cycle bit the decision D28 of R594, and the
stack fault's return address D52 (log 33). That the registers stand and the fault is entered from the unchanged state is
the decision D22 of R582 (log 51, DEDUCED); that an invalid page is a validity fault before write protection, that the
indirect limit is counted per pointer read, and that I/O protection is checked at decode is the decision D24 of R586 (log
33). -/
def Obligations.MapFaultsTaken : Prop :=
  ∀ (s : State) (ac : AcNo) (sa : ShortAddr) (xa : ExtAddr) (i : Instr), s.mapOn = true →
    let refs := fun (ind : Bool) (ia : Addr) (load store : Instr) =>
      let both := fun (u : State) (k : MapFaultKind) => MapFaults u k (exec load s) ∧ MapFaults u k (exec store s)
      (ind = false → (userEntry s ia).invalid = true → both s .validity) ∧
      (ind = false → (userEntry s ia).invalid = false → writeProtected s (userEntry s ia) = true →
        MapFaults s .write (exec store s)) ∧
      (ind = true → s.mapPending = false →
        (∀ (k : Nat) (a : Addr), k < Config.chainFuel → (k < 15 ∨ s.ms.indp = false) → s.pointerMapped k ia = some a →
          (userEntry s a).invalid = true → both (if k = 0 then s else s.referred) .validity) ∧
        (∀ a : Addr, s.ms.indp = true → s.pointerMapped 15 ia = some a → both s.referred .indirect) ∧
        ∀ e : Addr, s.mappedAt true ia = some e →
          ((userEntry s e).invalid = true → both s.referred .validity) ∧
          ((userEntry s e).invalid = false → writeProtected s (userEntry s e) = true →
            MapFaults s.referred .write (exec store s)))
    refs sa.ind (shortIa s sa) (.lda ac sa) (.sta ac sa) ∧ refs xa.ind (extIa s xa) (.elda ac xa) (.esta ac xa) ∧
    (s.runState = .running → s.xct = none → s.inputs = [] → s.con.trp = false → interruptDue s = false →
      ((userEntry s s.pc).invalid = true → MapFaults (countHold false s) .validity (step s)) ∧
      (s.mapped s.pc = true → wordsOf (lefMode s) (s.mappedWord s.pc) = 2 → ioProtected s = false →
        (userEntry s (s.pc + 1)).invalid = true → MapFaults (countHold false s.referred) .validity (step s))) ∧
    (ioProtected s = true → i.selectedIn false = true → ioFormat i = true → MapFaults s .io (exec i s)) ∧
    (s.ms.iop = true → MapFaults s .io (exec .lmp s))

/-- A user enable that waits is completed by the first pointer read of JMP, LDA and STA, whose further pointers and
operand are mapped, and by POPJ, POPB, RTN and RSTR, all of whose references are unmapped; not by a direct JMP (47_map
R601; that every pointer read completes it is the model's choice, log 23, and the decision D33, log 33). That a mapped
reference clears the single-cycle bit is D28 of R594 (log 33). -/
def Obligations.PendingEnable : Prop :=
  ∀ (s : State) (ac : AcNo) (ea : ShortAddr) (e : Addr), s.mapOn = false → s.mapPending = true → s.scPending = false →
    s.p31 = Config.page31Reset → Quiet s →
    let p := s.wordAt (shortIa s ea)
    let on := s.enabled
    let b := s.withWord spLoc (s.wordAt fpLoc)
    let sp : Addr := (s.wordAt spLoc).setWidth 15
    let w := fun (t : State) (k : Nat) => t.wordAt (sp - BitVec.ofNat 15 k)
    let s1 := s.withWord sfaLoc (w s 5)
    let s2 := s1.withWord slLoc (w s1 6)
    let s3 := s2.withWord fpLoc (w s2 7)
    let s4 := s3.withWord spLoc (w s3 8)
    (ea.ind = false → exec (.jmp ea) s = .next (s.goto (shortIa s ea))) ∧
    (ea.ind = true → p.msb = false → exec (.jmp ea) s = .next (on.goto (p.setWidth 15))) ∧
    (ea.ind = true → p.msb = true → on.mapped (p.setWidth 15) = true → (on.mappedWord (p.setWidth 15)).msb = false →
      exec (.jmp ea) s = .next (on.referred.goto ((on.mappedWord (p.setWidth 15)).setWidth 15))) ∧
    (ea.ind = true → p.msb = false → p.setWidth 15 = e → on.mapped e = true →
      exec (.lda ac ea) s = .next ((on.referred.withAc ac (on.mappedWord e)).next 1) ∧
      (writeProtected on (userEntry on e) = false →
        exec (.sta ac ea) s = .next ((on.withMappedWord e (s.ac.get ac)).next 1))) ∧
    exec .popj s = .next (s.dropped.enabled.goto (s.top.setWidth 15)) ∧
    exec .popb s = .next (s.blockPopped.enabled.goto (s.top.setWidth 15)) ∧
    exec .rtn s =
      .next ((b.blockPopped.withWord fpLoc (b.blockPopped.ac.get 3)).enabled.goto (b.top.setWidth 15)) ∧
    exec .rstr s =
      .next ((State.enabled { s4 with cry := (w s 0).msb, ac := ⟨w s 4, w s 3, w s 2, w s 1⟩ }).goto
        ((w s 0).setWidth 15))

/-- Interrupt entry: ION and the map off, UM the mode interrupted, the program counter in location 0, control indirect
through location 1; and when an interrupt is due: a request, ION one, no hold, no user enable and no single cycle
waiting, not in single-step mode (60_exceptions R623, R626, 46_io R522, 47_map R598, R601). The map turned off and UM
are the decision D25 of 47_map R587 and R626 from general knowledge (log 33, log 50 PRESUMED); that the word XCT keeps
is dropped is log 20. That none is taken in single-step mode is log 38. -/
def Obligations.InterruptEntry : Prop :=
  (∀ (s : State) (t : Addr), s.runState = .running → s.inputs = [] → interruptDue s = true →
    s.p31 = Config.page31Reset → Quiet s →
    let u : State := { s with ion := false, ms := { s.ms with um := s.mapOn }, mapOn := false, xct := none }
    let v := u.withWord 0 (joinWord false s.pc)
    v.pointerEnd 1 = some t → step s = .next (v.goto t) ∧ SameOutside s v [0]) ∧
  ∀ s : State, interruptDue s = true ↔
    irq s = true ∧ s.ion = true ∧ s.ionHold = .none ∧ s.mapPending = false ∧ s.scPending = false ∧ s.con.trp = false

/-- An undefined word: in unmapped mode a no-operation of one word, in mapped mode the emulator trap through location
11, unless that location holds zero; where its return block overflows the stack, the stack fault with the handler's
address (60_exceptions R650, R652, R656). That the user map stays on and the return block holds the address after the
word are the decision D50 of R650, the stack fault's return address D52 (log 33); the no-operation is the model's choice
(log 19). Stated for a user map that is the identity. That the undefined word counts as not one-cycle is log 26; that
its mapped fetch clears the single-cycle bit D28 of R594 (log 33). -/
def Obligations.UndefinedWords : Prop :=
  ∀ s : State,
    s.runState = .running → s.xct = none → s.inputs = [] → s.con.trp = false → interruptDue s = false →
    decodeWords (lefMode s) (s.wordAt s.pc) 0 = none →
    let u := countHold false s.referred
    let b := u.withBlock (s.pc + 1)
    (Supervisor s → step s = .next ((countHold false s).next 1)) ∧
    (IdentityMapped s → s.wordAt 0o11 = 0 → step s = .next (u.next 1)) ∧
    (IdentityMapped s → s.wordAt 0o11 ≠ 0 → TrapEnds b 0o11 (step s))

/-- A pointer chain the model gives up on never ends, so that a chain that ends is followed to its end whatever its length,
and an instruction that meets an endless one stops (20_memory R114, R115; the stop is the model's choice, log 18). -/
def Obligations.EndlessChains : Prop :=
  (∀ (s : State) (a : Addr), s.pointerEnd a = none → ∀ n : Nat, s.follow n a = none) ∧
  ∀ (s : State) (ac : AcNo) (ea : ShortAddr), Supervisor s → s.shortAt ea = none →
    exec (.jmp ea) s = .fault .indirectionLoop ∧ exec (.jsr ea) s = .fault .indirectionLoop ∧
    exec (.lda ac ea) s = .fault .indirectionLoop ∧ exec (.sta ac ea) s = .fault .indirectionLoop
end

