-- ==== Sys2Proof/Laws/State.lean ====
section
/-!
SUPPORT. The four-place register file, and for each update of the state the claims name, every field after it.
-/

namespace Sys2Proof.Laws

set_option Elab.async false

open Sys2Proof.Machine

/-! ## The register file -/

/-- A register reads as it was written. -/
@[simp] theorem quad_get_set_same {α : Type} (q : Quad α) (i : AcNo) (x : α) : (q.set i x).get i = x := by
  unfold Quad.get Quad.set
  split <;> simp_all

/-- A write leaves every other register. -/
theorem quad_get_set_other {α : Type} (q : Quad α) {i j : AcNo} (x : α) (h : i ≠ j) : (q.set i x).get j = q.get j := by
  have hn : i.toNat ≠ j.toNat := fun e => h (BitVec.eq_of_toNat_eq e)
  have hi := i.isLt
  have hj := j.isLt
  unfold Quad.get Quad.set
  split <;> split <;> (simp_all; try omega)

/-- Writing back what a register holds changes nothing. -/
@[simp] theorem quad_set_get {α : Type} (q : Quad α) (i : AcNo) : q.set i (q.get i) = q := by
  unfold Quad.get Quad.set
  split <;> simp_all

/-! ## `withWord` -/

@[simp] theorem withWord_cfg (s : State) (a : Addr) (v : Word) : (s.withWord a v).cfg = s.cfg := rfl

@[simp] theorem withWord_ac (s : State) (a : Addr) (v : Word) : (s.withWord a v).ac = s.ac := rfl

@[simp] theorem withWord_cry (s : State) (a : Addr) (v : Word) : (s.withWord a v).cry = s.cry := rfl

@[simp] theorem withWord_pc (s : State) (a : Addr) (v : Word) : (s.withWord a v).pc = s.pc := rfl

@[simp] theorem withWord_fpac (s : State) (a : Addr) (v : Word) : (s.withWord a v).fpac = s.fpac := rfl

@[simp] theorem withWord_fpsr (s : State) (a : Addr) (v : Word) : (s.withWord a v).fpsr = s.fpsr := rfl

@[simp] theorem withWord_ion (s : State) (a : Addr) (v : Word) : (s.withWord a v).ion = s.ion := rfl

@[simp] theorem withWord_ionHold (s : State) (a : Addr) (v : Word) : (s.withWord a v).ionHold = s.ionHold := rfl

@[simp] theorem withWord_mask (s : State) (a : Addr) (v : Word) : (s.withWord a v).mask = s.mask := rfl

@[simp] theorem withWord_con (s : State) (a : Addr) (v : Word) : (s.withWord a v).con = s.con := rfl

@[simp] theorem withWord_survived (s : State) (a : Addr) (v : Word) : (s.withWord a v).survived = s.survived := rfl

@[simp] theorem withWord_vcr (s : State) (a : Addr) (v : Word) : (s.withWord a v).vcr = s.vcr := rfl

@[simp] theorem withWord_runState (s : State) (a : Addr) (v : Word) : (s.withWord a v).runState = s.runState := rfl

@[simp] theorem withWord_pf (s : State) (a : Addr) (v : Word) : (s.withWord a v).pf = s.pf := rfl

@[simp] theorem withWord_tti (s : State) (a : Addr) (v : Word) : (s.withWord a v).tti = s.tti := rfl

@[simp] theorem withWord_tto (s : State) (a : Addr) (v : Word) : (s.withWord a v).tto = s.tto := rfl

@[simp] theorem withWord_rtc (s : State) (a : Addr) (v : Word) : (s.withWord a v).rtc = s.rtc := rfl

@[simp] theorem withWord_pit (s : State) (a : Addr) (v : Word) : (s.withWord a v).pit = s.pit := rfl

@[simp] theorem withWord_ercc (s : State) (a : Addr) (v : Word) : (s.withWord a v).ercc = s.ercc := rfl

@[simp] theorem withWord_runLight (s : State) (a : Addr) (v : Word) : (s.withWord a v).runLight = s.runLight := rfl

@[simp] theorem withWord_ext (s : State) (a : Addr) (v : Word) : (s.withWord a v).ext = s.ext := rfl

@[simp] theorem withWord_mem (s : State) (a : Addr) (v : Word) :
    (s.withWord a v).mem = Memory.writeWord s.mem a.toNat v := rfl

@[simp] theorem withWord_memFaults (s : State) (a : Addr) (v : Word) : (s.withWord a v).memFaults = s.memFaults := rfl

@[simp] theorem withWord_umap (s : State) (a : Addr) (v : Word) : (s.withWord a v).umap = s.umap := rfl

@[simp] theorem withWord_dmap (s : State) (a : Addr) (v : Word) : (s.withWord a v).dmap = s.dmap := rfl

@[simp] theorem withWord_ms (s : State) (a : Addr) (v : Word) : (s.withWord a v).ms = s.ms := rfl

@[simp] theorem withWord_mapOn (s : State) (a : Addr) (v : Word) : (s.withWord a v).mapOn = s.mapOn := rfl

@[simp] theorem withWord_mapPending (s : State) (a : Addr) (v : Word) : (s.withWord a v).mapPending = s.mapPending := rfl

@[simp] theorem withWord_scPending (s : State) (a : Addr) (v : Word) : (s.withWord a v).scPending = s.scPending := rfl

@[simp] theorem withWord_p31 (s : State) (a : Addr) (v : Word) : (s.withWord a v).p31 = s.p31 := rfl

@[simp] theorem withWord_pchk (s : State) (a : Addr) (v : Word) : (s.withWord a v).pchk = s.pchk := rfl

@[simp] theorem withWord_xct (s : State) (a : Addr) (v : Word) : (s.withWord a v).xct = s.xct := rfl

@[simp] theorem withWord_freeIdx (s : State) (a : Addr) (v : Word) : (s.withWord a v).freeIdx = s.freeIdx := rfl

@[simp] theorem withWord_dchDue (s : State) (a : Addr) (v : Word) : (s.withWord a v).dchDue = s.dchDue := rfl

@[simp] theorem withWord_testErrors (s : State) (a : Addr) (v : Word) : (s.withWord a v).testErrors = s.testErrors := rfl

@[simp] theorem withWord_inputs (s : State) (a : Addr) (v : Word) : (s.withWord a v).inputs = s.inputs := rfl

@[simp] theorem withWord_outputs (s : State) (a : Addr) (v : Word) : (s.withWord a v).outputs = s.outputs := rfl

/-! ## `withAc` -/

@[simp] theorem withAc_cfg (s : State) (i : AcNo) (v : Word) : (s.withAc i v).cfg = s.cfg := rfl

@[simp] theorem withAc_ac (s : State) (i : AcNo) (v : Word) : (s.withAc i v).ac = s.ac.set i v := rfl

@[simp] theorem withAc_cry (s : State) (i : AcNo) (v : Word) : (s.withAc i v).cry = s.cry := rfl

@[simp] theorem withAc_pc (s : State) (i : AcNo) (v : Word) : (s.withAc i v).pc = s.pc := rfl

@[simp] theorem withAc_fpac (s : State) (i : AcNo) (v : Word) : (s.withAc i v).fpac = s.fpac := rfl

@[simp] theorem withAc_fpsr (s : State) (i : AcNo) (v : Word) : (s.withAc i v).fpsr = s.fpsr := rfl

@[simp] theorem withAc_ion (s : State) (i : AcNo) (v : Word) : (s.withAc i v).ion = s.ion := rfl

@[simp] theorem withAc_ionHold (s : State) (i : AcNo) (v : Word) : (s.withAc i v).ionHold = s.ionHold := rfl

@[simp] theorem withAc_mask (s : State) (i : AcNo) (v : Word) : (s.withAc i v).mask = s.mask := rfl

@[simp] theorem withAc_con (s : State) (i : AcNo) (v : Word) : (s.withAc i v).con = s.con := rfl

@[simp] theorem withAc_survived (s : State) (i : AcNo) (v : Word) : (s.withAc i v).survived = s.survived := rfl

@[simp] theorem withAc_vcr (s : State) (i : AcNo) (v : Word) : (s.withAc i v).vcr = s.vcr := rfl

@[simp] theorem withAc_runState (s : State) (i : AcNo) (v : Word) : (s.withAc i v).runState = s.runState := rfl

@[simp] theorem withAc_pf (s : State) (i : AcNo) (v : Word) : (s.withAc i v).pf = s.pf := rfl

@[simp] theorem withAc_tti (s : State) (i : AcNo) (v : Word) : (s.withAc i v).tti = s.tti := rfl

@[simp] theorem withAc_tto (s : State) (i : AcNo) (v : Word) : (s.withAc i v).tto = s.tto := rfl

@[simp] theorem withAc_rtc (s : State) (i : AcNo) (v : Word) : (s.withAc i v).rtc = s.rtc := rfl

@[simp] theorem withAc_pit (s : State) (i : AcNo) (v : Word) : (s.withAc i v).pit = s.pit := rfl

@[simp] theorem withAc_ercc (s : State) (i : AcNo) (v : Word) : (s.withAc i v).ercc = s.ercc := rfl

@[simp] theorem withAc_runLight (s : State) (i : AcNo) (v : Word) : (s.withAc i v).runLight = s.runLight := rfl

@[simp] theorem withAc_ext (s : State) (i : AcNo) (v : Word) : (s.withAc i v).ext = s.ext := rfl

@[simp] theorem withAc_mem (s : State) (i : AcNo) (v : Word) : (s.withAc i v).mem = s.mem := rfl

@[simp] theorem withAc_memFaults (s : State) (i : AcNo) (v : Word) : (s.withAc i v).memFaults = s.memFaults := rfl

@[simp] theorem withAc_umap (s : State) (i : AcNo) (v : Word) : (s.withAc i v).umap = s.umap := rfl

@[simp] theorem withAc_dmap (s : State) (i : AcNo) (v : Word) : (s.withAc i v).dmap = s.dmap := rfl

@[simp] theorem withAc_ms (s : State) (i : AcNo) (v : Word) : (s.withAc i v).ms = s.ms := rfl

@[simp] theorem withAc_mapOn (s : State) (i : AcNo) (v : Word) : (s.withAc i v).mapOn = s.mapOn := rfl

@[simp] theorem withAc_mapPending (s : State) (i : AcNo) (v : Word) : (s.withAc i v).mapPending = s.mapPending := rfl

@[simp] theorem withAc_scPending (s : State) (i : AcNo) (v : Word) : (s.withAc i v).scPending = s.scPending := rfl

@[simp] theorem withAc_p31 (s : State) (i : AcNo) (v : Word) : (s.withAc i v).p31 = s.p31 := rfl

@[simp] theorem withAc_pchk (s : State) (i : AcNo) (v : Word) : (s.withAc i v).pchk = s.pchk := rfl

@[simp] theorem withAc_xct (s : State) (i : AcNo) (v : Word) : (s.withAc i v).xct = s.xct := rfl

@[simp] theorem withAc_freeIdx (s : State) (i : AcNo) (v : Word) : (s.withAc i v).freeIdx = s.freeIdx := rfl

@[simp] theorem withAc_dchDue (s : State) (i : AcNo) (v : Word) : (s.withAc i v).dchDue = s.dchDue := rfl

@[simp] theorem withAc_testErrors (s : State) (i : AcNo) (v : Word) : (s.withAc i v).testErrors = s.testErrors := rfl

@[simp] theorem withAc_inputs (s : State) (i : AcNo) (v : Word) : (s.withAc i v).inputs = s.inputs := rfl

@[simp] theorem withAc_outputs (s : State) (i : AcNo) (v : Word) : (s.withAc i v).outputs = s.outputs := rfl

/-! ## `withFpac` -/

@[simp] theorem withFpac_cfg (s : State) (i : AcNo) (v : QWord) : (s.withFpac i v).cfg = s.cfg := rfl

@[simp] theorem withFpac_ac (s : State) (i : AcNo) (v : QWord) : (s.withFpac i v).ac = s.ac := rfl

@[simp] theorem withFpac_cry (s : State) (i : AcNo) (v : QWord) : (s.withFpac i v).cry = s.cry := rfl

@[simp] theorem withFpac_pc (s : State) (i : AcNo) (v : QWord) : (s.withFpac i v).pc = s.pc := rfl

@[simp] theorem withFpac_fpac (s : State) (i : AcNo) (v : QWord) : (s.withFpac i v).fpac = s.fpac.set i v := rfl

@[simp] theorem withFpac_fpsr (s : State) (i : AcNo) (v : QWord) : (s.withFpac i v).fpsr = s.fpsr := rfl

@[simp] theorem withFpac_ion (s : State) (i : AcNo) (v : QWord) : (s.withFpac i v).ion = s.ion := rfl

@[simp] theorem withFpac_ionHold (s : State) (i : AcNo) (v : QWord) : (s.withFpac i v).ionHold = s.ionHold := rfl

@[simp] theorem withFpac_mask (s : State) (i : AcNo) (v : QWord) : (s.withFpac i v).mask = s.mask := rfl

@[simp] theorem withFpac_con (s : State) (i : AcNo) (v : QWord) : (s.withFpac i v).con = s.con := rfl

@[simp] theorem withFpac_survived (s : State) (i : AcNo) (v : QWord) : (s.withFpac i v).survived = s.survived := rfl

@[simp] theorem withFpac_vcr (s : State) (i : AcNo) (v : QWord) : (s.withFpac i v).vcr = s.vcr := rfl

@[simp] theorem withFpac_runState (s : State) (i : AcNo) (v : QWord) : (s.withFpac i v).runState = s.runState := rfl

@[simp] theorem withFpac_pf (s : State) (i : AcNo) (v : QWord) : (s.withFpac i v).pf = s.pf := rfl

@[simp] theorem withFpac_tti (s : State) (i : AcNo) (v : QWord) : (s.withFpac i v).tti = s.tti := rfl

@[simp] theorem withFpac_tto (s : State) (i : AcNo) (v : QWord) : (s.withFpac i v).tto = s.tto := rfl

@[simp] theorem withFpac_rtc (s : State) (i : AcNo) (v : QWord) : (s.withFpac i v).rtc = s.rtc := rfl

@[simp] theorem withFpac_pit (s : State) (i : AcNo) (v : QWord) : (s.withFpac i v).pit = s.pit := rfl

@[simp] theorem withFpac_ercc (s : State) (i : AcNo) (v : QWord) : (s.withFpac i v).ercc = s.ercc := rfl

@[simp] theorem withFpac_runLight (s : State) (i : AcNo) (v : QWord) : (s.withFpac i v).runLight = s.runLight := rfl

@[simp] theorem withFpac_ext (s : State) (i : AcNo) (v : QWord) : (s.withFpac i v).ext = s.ext := rfl

@[simp] theorem withFpac_mem (s : State) (i : AcNo) (v : QWord) : (s.withFpac i v).mem = s.mem := rfl

@[simp] theorem withFpac_memFaults (s : State) (i : AcNo) (v : QWord) : (s.withFpac i v).memFaults = s.memFaults := rfl

@[simp] theorem withFpac_umap (s : State) (i : AcNo) (v : QWord) : (s.withFpac i v).umap = s.umap := rfl

@[simp] theorem withFpac_dmap (s : State) (i : AcNo) (v : QWord) : (s.withFpac i v).dmap = s.dmap := rfl

@[simp] theorem withFpac_ms (s : State) (i : AcNo) (v : QWord) : (s.withFpac i v).ms = s.ms := rfl

@[simp] theorem withFpac_mapOn (s : State) (i : AcNo) (v : QWord) : (s.withFpac i v).mapOn = s.mapOn := rfl

@[simp] theorem withFpac_mapPending (s : State) (i : AcNo) (v : QWord) : (s.withFpac i v).mapPending = s.mapPending := rfl

@[simp] theorem withFpac_scPending (s : State) (i : AcNo) (v : QWord) : (s.withFpac i v).scPending = s.scPending := rfl

@[simp] theorem withFpac_p31 (s : State) (i : AcNo) (v : QWord) : (s.withFpac i v).p31 = s.p31 := rfl

@[simp] theorem withFpac_pchk (s : State) (i : AcNo) (v : QWord) : (s.withFpac i v).pchk = s.pchk := rfl

@[simp] theorem withFpac_xct (s : State) (i : AcNo) (v : QWord) : (s.withFpac i v).xct = s.xct := rfl

@[simp] theorem withFpac_freeIdx (s : State) (i : AcNo) (v : QWord) : (s.withFpac i v).freeIdx = s.freeIdx := rfl

@[simp] theorem withFpac_dchDue (s : State) (i : AcNo) (v : QWord) : (s.withFpac i v).dchDue = s.dchDue := rfl

@[simp] theorem withFpac_testErrors (s : State) (i : AcNo) (v : QWord) : (s.withFpac i v).testErrors = s.testErrors := rfl

@[simp] theorem withFpac_inputs (s : State) (i : AcNo) (v : QWord) : (s.withFpac i v).inputs = s.inputs := rfl

@[simp] theorem withFpac_outputs (s : State) (i : AcNo) (v : QWord) : (s.withFpac i v).outputs = s.outputs := rfl

/-! ## `next` -/

@[simp] theorem next_cfg (s : State) (n : Nat) : (s.next n).cfg = s.cfg := rfl

@[simp] theorem next_ac (s : State) (n : Nat) : (s.next n).ac = s.ac := rfl

@[simp] theorem next_cry (s : State) (n : Nat) : (s.next n).cry = s.cry := rfl

@[simp] theorem next_pc (s : State) (n : Nat) : (s.next n).pc = s.pc + BitVec.ofNat 15 n := rfl

@[simp] theorem next_fpac (s : State) (n : Nat) : (s.next n).fpac = s.fpac := rfl

@[simp] theorem next_fpsr (s : State) (n : Nat) : (s.next n).fpsr = s.fpsr := rfl

@[simp] theorem next_ion (s : State) (n : Nat) : (s.next n).ion = s.ion := rfl

@[simp] theorem next_ionHold (s : State) (n : Nat) : (s.next n).ionHold = s.ionHold := rfl

@[simp] theorem next_mask (s : State) (n : Nat) : (s.next n).mask = s.mask := rfl

@[simp] theorem next_con (s : State) (n : Nat) : (s.next n).con = s.con := rfl

@[simp] theorem next_survived (s : State) (n : Nat) : (s.next n).survived = s.survived := rfl

@[simp] theorem next_vcr (s : State) (n : Nat) : (s.next n).vcr = s.vcr := rfl

@[simp] theorem next_runState (s : State) (n : Nat) : (s.next n).runState = s.runState := rfl

@[simp] theorem next_pf (s : State) (n : Nat) : (s.next n).pf = s.pf := rfl

@[simp] theorem next_tti (s : State) (n : Nat) : (s.next n).tti = s.tti := rfl

@[simp] theorem next_tto (s : State) (n : Nat) : (s.next n).tto = s.tto := rfl

@[simp] theorem next_rtc (s : State) (n : Nat) : (s.next n).rtc = s.rtc := rfl

@[simp] theorem next_pit (s : State) (n : Nat) : (s.next n).pit = s.pit := rfl

@[simp] theorem next_ercc (s : State) (n : Nat) : (s.next n).ercc = s.ercc := rfl

@[simp] theorem next_runLight (s : State) (n : Nat) : (s.next n).runLight = s.runLight := rfl

@[simp] theorem next_ext (s : State) (n : Nat) : (s.next n).ext = s.ext := rfl

@[simp] theorem next_mem (s : State) (n : Nat) : (s.next n).mem = s.mem := rfl

@[simp] theorem next_memFaults (s : State) (n : Nat) : (s.next n).memFaults = s.memFaults := rfl

@[simp] theorem next_umap (s : State) (n : Nat) : (s.next n).umap = s.umap := rfl

@[simp] theorem next_dmap (s : State) (n : Nat) : (s.next n).dmap = s.dmap := rfl

@[simp] theorem next_ms (s : State) (n : Nat) : (s.next n).ms = s.ms := rfl

@[simp] theorem next_mapOn (s : State) (n : Nat) : (s.next n).mapOn = s.mapOn := rfl

@[simp] theorem next_mapPending (s : State) (n : Nat) : (s.next n).mapPending = s.mapPending := rfl

@[simp] theorem next_scPending (s : State) (n : Nat) : (s.next n).scPending = s.scPending := rfl

@[simp] theorem next_p31 (s : State) (n : Nat) : (s.next n).p31 = s.p31 := rfl

@[simp] theorem next_pchk (s : State) (n : Nat) : (s.next n).pchk = s.pchk := rfl

@[simp] theorem next_xct (s : State) (n : Nat) : (s.next n).xct = s.xct := rfl

@[simp] theorem next_freeIdx (s : State) (n : Nat) : (s.next n).freeIdx = s.freeIdx := rfl

@[simp] theorem next_dchDue (s : State) (n : Nat) : (s.next n).dchDue = s.dchDue := rfl

@[simp] theorem next_testErrors (s : State) (n : Nat) : (s.next n).testErrors = s.testErrors := rfl

@[simp] theorem next_inputs (s : State) (n : Nat) : (s.next n).inputs = s.inputs := rfl

@[simp] theorem next_outputs (s : State) (n : Nat) : (s.next n).outputs = s.outputs := rfl

/-! ## `goto` -/

@[simp] theorem goto_cfg (s : State) (a : Addr) : (s.goto a).cfg = s.cfg := rfl

@[simp] theorem goto_ac (s : State) (a : Addr) : (s.goto a).ac = s.ac := rfl

@[simp] theorem goto_cry (s : State) (a : Addr) : (s.goto a).cry = s.cry := rfl

@[simp] theorem goto_pc (s : State) (a : Addr) : (s.goto a).pc = a := rfl

@[simp] theorem goto_fpac (s : State) (a : Addr) : (s.goto a).fpac = s.fpac := rfl

@[simp] theorem goto_fpsr (s : State) (a : Addr) : (s.goto a).fpsr = s.fpsr := rfl

@[simp] theorem goto_ion (s : State) (a : Addr) : (s.goto a).ion = s.ion := rfl

@[simp] theorem goto_ionHold (s : State) (a : Addr) : (s.goto a).ionHold = s.ionHold := rfl

@[simp] theorem goto_mask (s : State) (a : Addr) : (s.goto a).mask = s.mask := rfl

@[simp] theorem goto_con (s : State) (a : Addr) : (s.goto a).con = s.con := rfl

@[simp] theorem goto_survived (s : State) (a : Addr) : (s.goto a).survived = s.survived := rfl

@[simp] theorem goto_vcr (s : State) (a : Addr) : (s.goto a).vcr = s.vcr := rfl

@[simp] theorem goto_runState (s : State) (a : Addr) : (s.goto a).runState = s.runState := rfl

@[simp] theorem goto_pf (s : State) (a : Addr) : (s.goto a).pf = s.pf := rfl

@[simp] theorem goto_tti (s : State) (a : Addr) : (s.goto a).tti = s.tti := rfl

@[simp] theorem goto_tto (s : State) (a : Addr) : (s.goto a).tto = s.tto := rfl

@[simp] theorem goto_rtc (s : State) (a : Addr) : (s.goto a).rtc = s.rtc := rfl

@[simp] theorem goto_pit (s : State) (a : Addr) : (s.goto a).pit = s.pit := rfl

@[simp] theorem goto_ercc (s : State) (a : Addr) : (s.goto a).ercc = s.ercc := rfl

@[simp] theorem goto_runLight (s : State) (a : Addr) : (s.goto a).runLight = s.runLight := rfl

@[simp] theorem goto_ext (s : State) (a : Addr) : (s.goto a).ext = s.ext := rfl

@[simp] theorem goto_mem (s : State) (a : Addr) : (s.goto a).mem = s.mem := rfl

@[simp] theorem goto_memFaults (s : State) (a : Addr) : (s.goto a).memFaults = s.memFaults := rfl

@[simp] theorem goto_umap (s : State) (a : Addr) : (s.goto a).umap = s.umap := rfl

@[simp] theorem goto_dmap (s : State) (a : Addr) : (s.goto a).dmap = s.dmap := rfl

@[simp] theorem goto_ms (s : State) (a : Addr) : (s.goto a).ms = s.ms := rfl

@[simp] theorem goto_mapOn (s : State) (a : Addr) : (s.goto a).mapOn = s.mapOn := rfl

@[simp] theorem goto_mapPending (s : State) (a : Addr) : (s.goto a).mapPending = s.mapPending := rfl

@[simp] theorem goto_scPending (s : State) (a : Addr) : (s.goto a).scPending = s.scPending := rfl

@[simp] theorem goto_p31 (s : State) (a : Addr) : (s.goto a).p31 = s.p31 := rfl

@[simp] theorem goto_pchk (s : State) (a : Addr) : (s.goto a).pchk = s.pchk := rfl

@[simp] theorem goto_xct (s : State) (a : Addr) : (s.goto a).xct = s.xct := rfl

@[simp] theorem goto_freeIdx (s : State) (a : Addr) : (s.goto a).freeIdx = s.freeIdx := rfl

@[simp] theorem goto_dchDue (s : State) (a : Addr) : (s.goto a).dchDue = s.dchDue := rfl

@[simp] theorem goto_testErrors (s : State) (a : Addr) : (s.goto a).testErrors = s.testErrors := rfl

@[simp] theorem goto_inputs (s : State) (a : Addr) : (s.goto a).inputs = s.inputs := rfl

@[simp] theorem goto_outputs (s : State) (a : Addr) : (s.goto a).outputs = s.outputs := rfl

/-! ## `pushed` -/

@[simp] theorem pushed_cfg (s : State) (v : Word) : (s.pushed v).cfg = s.cfg := rfl

@[simp] theorem pushed_ac (s : State) (v : Word) : (s.pushed v).ac = s.ac := rfl

@[simp] theorem pushed_cry (s : State) (v : Word) : (s.pushed v).cry = s.cry := rfl

@[simp] theorem pushed_pc (s : State) (v : Word) : (s.pushed v).pc = s.pc := rfl

@[simp] theorem pushed_fpac (s : State) (v : Word) : (s.pushed v).fpac = s.fpac := rfl

@[simp] theorem pushed_fpsr (s : State) (v : Word) : (s.pushed v).fpsr = s.fpsr := rfl

@[simp] theorem pushed_ion (s : State) (v : Word) : (s.pushed v).ion = s.ion := rfl

@[simp] theorem pushed_ionHold (s : State) (v : Word) : (s.pushed v).ionHold = s.ionHold := rfl

@[simp] theorem pushed_mask (s : State) (v : Word) : (s.pushed v).mask = s.mask := rfl

@[simp] theorem pushed_con (s : State) (v : Word) : (s.pushed v).con = s.con := rfl

@[simp] theorem pushed_survived (s : State) (v : Word) : (s.pushed v).survived = s.survived := rfl

@[simp] theorem pushed_vcr (s : State) (v : Word) : (s.pushed v).vcr = s.vcr := rfl

@[simp] theorem pushed_runState (s : State) (v : Word) : (s.pushed v).runState = s.runState := rfl

@[simp] theorem pushed_pf (s : State) (v : Word) : (s.pushed v).pf = s.pf := rfl

@[simp] theorem pushed_tti (s : State) (v : Word) : (s.pushed v).tti = s.tti := rfl

@[simp] theorem pushed_tto (s : State) (v : Word) : (s.pushed v).tto = s.tto := rfl

@[simp] theorem pushed_rtc (s : State) (v : Word) : (s.pushed v).rtc = s.rtc := rfl

@[simp] theorem pushed_pit (s : State) (v : Word) : (s.pushed v).pit = s.pit := rfl

@[simp] theorem pushed_ercc (s : State) (v : Word) : (s.pushed v).ercc = s.ercc := rfl

@[simp] theorem pushed_runLight (s : State) (v : Word) : (s.pushed v).runLight = s.runLight := rfl

@[simp] theorem pushed_ext (s : State) (v : Word) : (s.pushed v).ext = s.ext := rfl

@[simp] theorem pushed_memFaults (s : State) (v : Word) : (s.pushed v).memFaults = s.memFaults := rfl

@[simp] theorem pushed_umap (s : State) (v : Word) : (s.pushed v).umap = s.umap := rfl

@[simp] theorem pushed_dmap (s : State) (v : Word) : (s.pushed v).dmap = s.dmap := rfl

@[simp] theorem pushed_ms (s : State) (v : Word) : (s.pushed v).ms = s.ms := rfl

@[simp] theorem pushed_mapOn (s : State) (v : Word) : (s.pushed v).mapOn = s.mapOn := rfl

@[simp] theorem pushed_mapPending (s : State) (v : Word) : (s.pushed v).mapPending = s.mapPending := rfl

@[simp] theorem pushed_scPending (s : State) (v : Word) : (s.pushed v).scPending = s.scPending := rfl

@[simp] theorem pushed_p31 (s : State) (v : Word) : (s.pushed v).p31 = s.p31 := rfl

@[simp] theorem pushed_pchk (s : State) (v : Word) : (s.pushed v).pchk = s.pchk := rfl

@[simp] theorem pushed_xct (s : State) (v : Word) : (s.pushed v).xct = s.xct := rfl

@[simp] theorem pushed_freeIdx (s : State) (v : Word) : (s.pushed v).freeIdx = s.freeIdx := rfl

@[simp] theorem pushed_dchDue (s : State) (v : Word) : (s.pushed v).dchDue = s.dchDue := rfl

@[simp] theorem pushed_testErrors (s : State) (v : Word) : (s.pushed v).testErrors = s.testErrors := rfl

@[simp] theorem pushed_inputs (s : State) (v : Word) : (s.pushed v).inputs = s.inputs := rfl

@[simp] theorem pushed_outputs (s : State) (v : Word) : (s.pushed v).outputs = s.outputs := rfl

/-! ## `dropped` -/

@[simp] theorem dropped_cfg (s : State) : (s.dropped).cfg = s.cfg := rfl

@[simp] theorem dropped_ac (s : State) : (s.dropped).ac = s.ac := rfl

@[simp] theorem dropped_cry (s : State) : (s.dropped).cry = s.cry := rfl

@[simp] theorem dropped_pc (s : State) : (s.dropped).pc = s.pc := rfl

@[simp] theorem dropped_fpac (s : State) : (s.dropped).fpac = s.fpac := rfl

@[simp] theorem dropped_fpsr (s : State) : (s.dropped).fpsr = s.fpsr := rfl

@[simp] theorem dropped_ion (s : State) : (s.dropped).ion = s.ion := rfl

@[simp] theorem dropped_ionHold (s : State) : (s.dropped).ionHold = s.ionHold := rfl

@[simp] theorem dropped_mask (s : State) : (s.dropped).mask = s.mask := rfl

@[simp] theorem dropped_con (s : State) : (s.dropped).con = s.con := rfl

@[simp] theorem dropped_survived (s : State) : (s.dropped).survived = s.survived := rfl

@[simp] theorem dropped_vcr (s : State) : (s.dropped).vcr = s.vcr := rfl

@[simp] theorem dropped_runState (s : State) : (s.dropped).runState = s.runState := rfl

@[simp] theorem dropped_pf (s : State) : (s.dropped).pf = s.pf := rfl

@[simp] theorem dropped_tti (s : State) : (s.dropped).tti = s.tti := rfl

@[simp] theorem dropped_tto (s : State) : (s.dropped).tto = s.tto := rfl

@[simp] theorem dropped_rtc (s : State) : (s.dropped).rtc = s.rtc := rfl

@[simp] theorem dropped_pit (s : State) : (s.dropped).pit = s.pit := rfl

@[simp] theorem dropped_ercc (s : State) : (s.dropped).ercc = s.ercc := rfl

@[simp] theorem dropped_runLight (s : State) : (s.dropped).runLight = s.runLight := rfl

@[simp] theorem dropped_ext (s : State) : (s.dropped).ext = s.ext := rfl

@[simp] theorem dropped_memFaults (s : State) : (s.dropped).memFaults = s.memFaults := rfl

@[simp] theorem dropped_umap (s : State) : (s.dropped).umap = s.umap := rfl

@[simp] theorem dropped_dmap (s : State) : (s.dropped).dmap = s.dmap := rfl

@[simp] theorem dropped_ms (s : State) : (s.dropped).ms = s.ms := rfl

@[simp] theorem dropped_mapOn (s : State) : (s.dropped).mapOn = s.mapOn := rfl

@[simp] theorem dropped_mapPending (s : State) : (s.dropped).mapPending = s.mapPending := rfl

@[simp] theorem dropped_scPending (s : State) : (s.dropped).scPending = s.scPending := rfl

@[simp] theorem dropped_p31 (s : State) : (s.dropped).p31 = s.p31 := rfl

@[simp] theorem dropped_pchk (s : State) : (s.dropped).pchk = s.pchk := rfl

@[simp] theorem dropped_xct (s : State) : (s.dropped).xct = s.xct := rfl

@[simp] theorem dropped_freeIdx (s : State) : (s.dropped).freeIdx = s.freeIdx := rfl

@[simp] theorem dropped_dchDue (s : State) : (s.dropped).dchDue = s.dchDue := rfl

@[simp] theorem dropped_testErrors (s : State) : (s.dropped).testErrors = s.testErrors := rfl

@[simp] theorem dropped_inputs (s : State) : (s.dropped).inputs = s.inputs := rfl

@[simp] theorem dropped_outputs (s : State) : (s.dropped).outputs = s.outputs := rfl

/-! ## `countHold` -/

@[simp] theorem countHold_cfg (s : State) (one : Bool) : (countHold one s).cfg = s.cfg := rfl

@[simp] theorem countHold_ac (s : State) (one : Bool) : (countHold one s).ac = s.ac := rfl

@[simp] theorem countHold_cry (s : State) (one : Bool) : (countHold one s).cry = s.cry := rfl

@[simp] theorem countHold_pc (s : State) (one : Bool) : (countHold one s).pc = s.pc := rfl

@[simp] theorem countHold_fpac (s : State) (one : Bool) : (countHold one s).fpac = s.fpac := rfl

@[simp] theorem countHold_fpsr (s : State) (one : Bool) : (countHold one s).fpsr = s.fpsr := rfl

@[simp] theorem countHold_ion (s : State) (one : Bool) : (countHold one s).ion = s.ion := rfl

@[simp] theorem countHold_ionHold (s : State) (one : Bool) : (countHold one s).ionHold = holdAfter one s.ionHold := rfl

@[simp] theorem countHold_mask (s : State) (one : Bool) : (countHold one s).mask = s.mask := rfl

@[simp] theorem countHold_con (s : State) (one : Bool) : (countHold one s).con = s.con := rfl

@[simp] theorem countHold_survived (s : State) (one : Bool) : (countHold one s).survived = s.survived := rfl

@[simp] theorem countHold_vcr (s : State) (one : Bool) : (countHold one s).vcr = s.vcr := rfl

@[simp] theorem countHold_runState (s : State) (one : Bool) : (countHold one s).runState = s.runState := rfl

@[simp] theorem countHold_pf (s : State) (one : Bool) : (countHold one s).pf = s.pf := rfl

@[simp] theorem countHold_tti (s : State) (one : Bool) : (countHold one s).tti = s.tti := rfl

@[simp] theorem countHold_tto (s : State) (one : Bool) : (countHold one s).tto = s.tto := rfl

@[simp] theorem countHold_rtc (s : State) (one : Bool) : (countHold one s).rtc = s.rtc := rfl

@[simp] theorem countHold_pit (s : State) (one : Bool) : (countHold one s).pit = s.pit := rfl

@[simp] theorem countHold_ercc (s : State) (one : Bool) : (countHold one s).ercc = s.ercc := rfl

@[simp] theorem countHold_runLight (s : State) (one : Bool) : (countHold one s).runLight = s.runLight := rfl

@[simp] theorem countHold_ext (s : State) (one : Bool) : (countHold one s).ext = s.ext := rfl

@[simp] theorem countHold_mem (s : State) (one : Bool) : (countHold one s).mem = s.mem := rfl

@[simp] theorem countHold_memFaults (s : State) (one : Bool) : (countHold one s).memFaults = s.memFaults := rfl

@[simp] theorem countHold_umap (s : State) (one : Bool) : (countHold one s).umap = s.umap := rfl

@[simp] theorem countHold_dmap (s : State) (one : Bool) : (countHold one s).dmap = s.dmap := rfl

@[simp] theorem countHold_ms (s : State) (one : Bool) : (countHold one s).ms = s.ms := rfl

@[simp] theorem countHold_mapOn (s : State) (one : Bool) : (countHold one s).mapOn = s.mapOn := rfl

@[simp] theorem countHold_mapPending (s : State) (one : Bool) : (countHold one s).mapPending = s.mapPending := rfl

@[simp] theorem countHold_scPending (s : State) (one : Bool) : (countHold one s).scPending = s.scPending := rfl

@[simp] theorem countHold_p31 (s : State) (one : Bool) : (countHold one s).p31 = s.p31 := rfl

@[simp] theorem countHold_pchk (s : State) (one : Bool) : (countHold one s).pchk = s.pchk := rfl

@[simp] theorem countHold_xct (s : State) (one : Bool) : (countHold one s).xct = s.xct := rfl

@[simp] theorem countHold_freeIdx (s : State) (one : Bool) : (countHold one s).freeIdx = s.freeIdx := rfl

@[simp] theorem countHold_dchDue (s : State) (one : Bool) : (countHold one s).dchDue = s.dchDue := rfl

@[simp] theorem countHold_testErrors (s : State) (one : Bool) : (countHold one s).testErrors = s.testErrors := rfl

@[simp] theorem countHold_inputs (s : State) (one : Bool) : (countHold one s).inputs = s.inputs := rfl

@[simp] theorem countHold_outputs (s : State) (one : Bool) : (countHold one s).outputs = s.outputs := rfl

/-! ## `referred` -/

@[simp] theorem referred_cfg (s : State) : (s.referred).cfg = s.cfg := rfl

@[simp] theorem referred_ac (s : State) : (s.referred).ac = s.ac := rfl

@[simp] theorem referred_cry (s : State) : (s.referred).cry = s.cry := rfl

@[simp] theorem referred_pc (s : State) : (s.referred).pc = s.pc := rfl

@[simp] theorem referred_fpac (s : State) : (s.referred).fpac = s.fpac := rfl

@[simp] theorem referred_fpsr (s : State) : (s.referred).fpsr = s.fpsr := rfl

@[simp] theorem referred_ion (s : State) : (s.referred).ion = s.ion := rfl

@[simp] theorem referred_ionHold (s : State) : (s.referred).ionHold = s.ionHold := rfl

@[simp] theorem referred_mask (s : State) : (s.referred).mask = s.mask := rfl

@[simp] theorem referred_con (s : State) : (s.referred).con = s.con := rfl

@[simp] theorem referred_survived (s : State) : (s.referred).survived = s.survived := rfl

@[simp] theorem referred_vcr (s : State) : (s.referred).vcr = s.vcr := rfl

@[simp] theorem referred_runState (s : State) : (s.referred).runState = s.runState := rfl

@[simp] theorem referred_pf (s : State) : (s.referred).pf = s.pf := rfl

@[simp] theorem referred_tti (s : State) : (s.referred).tti = s.tti := rfl

@[simp] theorem referred_tto (s : State) : (s.referred).tto = s.tto := rfl

@[simp] theorem referred_rtc (s : State) : (s.referred).rtc = s.rtc := rfl

@[simp] theorem referred_pit (s : State) : (s.referred).pit = s.pit := rfl

@[simp] theorem referred_ercc (s : State) : (s.referred).ercc = s.ercc := rfl

@[simp] theorem referred_runLight (s : State) : (s.referred).runLight = s.runLight := rfl

@[simp] theorem referred_ext (s : State) : (s.referred).ext = s.ext := rfl

@[simp] theorem referred_mem (s : State) : (s.referred).mem = s.mem := rfl

@[simp] theorem referred_memFaults (s : State) : (s.referred).memFaults = s.memFaults := rfl

@[simp] theorem referred_umap (s : State) : (s.referred).umap = s.umap := rfl

@[simp] theorem referred_dmap (s : State) : (s.referred).dmap = s.dmap := rfl

@[simp] theorem referred_ms (s : State) : (s.referred).ms = { s.ms with sc := false } := rfl

@[simp] theorem referred_mapOn (s : State) : (s.referred).mapOn = s.mapOn := rfl

@[simp] theorem referred_mapPending (s : State) : (s.referred).mapPending = s.mapPending := rfl

@[simp] theorem referred_scPending (s : State) : (s.referred).scPending = s.scPending := rfl

@[simp] theorem referred_p31 (s : State) : (s.referred).p31 = s.p31 := rfl

@[simp] theorem referred_pchk (s : State) : (s.referred).pchk = s.pchk := rfl

@[simp] theorem referred_xct (s : State) : (s.referred).xct = s.xct := rfl

@[simp] theorem referred_freeIdx (s : State) : (s.referred).freeIdx = s.freeIdx := rfl

@[simp] theorem referred_dchDue (s : State) : (s.referred).dchDue = s.dchDue := rfl

@[simp] theorem referred_testErrors (s : State) : (s.referred).testErrors = s.testErrors := rfl

@[simp] theorem referred_inputs (s : State) : (s.referred).inputs = s.inputs := rfl

@[simp] theorem referred_outputs (s : State) : (s.referred).outputs = s.outputs := rfl

/-! ## `trapOff` -/

@[simp] theorem trapOff_cfg (s : State) : (s.trapOff).cfg = s.cfg := rfl

@[simp] theorem trapOff_ac (s : State) : (s.trapOff).ac = s.ac := rfl

@[simp] theorem trapOff_cry (s : State) : (s.trapOff).cry = s.cry := rfl

@[simp] theorem trapOff_pc (s : State) : (s.trapOff).pc = s.pc := rfl

@[simp] theorem trapOff_fpac (s : State) : (s.trapOff).fpac = s.fpac := rfl

@[simp] theorem trapOff_fpsr (s : State) : (s.trapOff).fpsr = { s.fpsr with te := false } := rfl

@[simp] theorem trapOff_ion (s : State) : (s.trapOff).ion = s.ion := rfl

@[simp] theorem trapOff_ionHold (s : State) : (s.trapOff).ionHold = s.ionHold := rfl

@[simp] theorem trapOff_mask (s : State) : (s.trapOff).mask = s.mask := rfl

@[simp] theorem trapOff_con (s : State) : (s.trapOff).con = s.con := rfl

@[simp] theorem trapOff_survived (s : State) : (s.trapOff).survived = s.survived := rfl

@[simp] theorem trapOff_vcr (s : State) : (s.trapOff).vcr = s.vcr := rfl

@[simp] theorem trapOff_runState (s : State) : (s.trapOff).runState = s.runState := rfl

@[simp] theorem trapOff_pf (s : State) : (s.trapOff).pf = s.pf := rfl

@[simp] theorem trapOff_tti (s : State) : (s.trapOff).tti = s.tti := rfl

@[simp] theorem trapOff_tto (s : State) : (s.trapOff).tto = s.tto := rfl

@[simp] theorem trapOff_rtc (s : State) : (s.trapOff).rtc = s.rtc := rfl

@[simp] theorem trapOff_pit (s : State) : (s.trapOff).pit = s.pit := rfl

@[simp] theorem trapOff_ercc (s : State) : (s.trapOff).ercc = s.ercc := rfl

@[simp] theorem trapOff_runLight (s : State) : (s.trapOff).runLight = s.runLight := rfl

@[simp] theorem trapOff_ext (s : State) : (s.trapOff).ext = s.ext := rfl

@[simp] theorem trapOff_mem (s : State) : (s.trapOff).mem = s.mem := rfl

@[simp] theorem trapOff_memFaults (s : State) : (s.trapOff).memFaults = s.memFaults := rfl

@[simp] theorem trapOff_umap (s : State) : (s.trapOff).umap = s.umap := rfl

@[simp] theorem trapOff_dmap (s : State) : (s.trapOff).dmap = s.dmap := rfl

@[simp] theorem trapOff_ms (s : State) : (s.trapOff).ms = s.ms := rfl

@[simp] theorem trapOff_mapOn (s : State) : (s.trapOff).mapOn = s.mapOn := rfl

@[simp] theorem trapOff_mapPending (s : State) : (s.trapOff).mapPending = s.mapPending := rfl

@[simp] theorem trapOff_scPending (s : State) : (s.trapOff).scPending = s.scPending := rfl

@[simp] theorem trapOff_p31 (s : State) : (s.trapOff).p31 = s.p31 := rfl

@[simp] theorem trapOff_pchk (s : State) : (s.trapOff).pchk = s.pchk := rfl

@[simp] theorem trapOff_xct (s : State) : (s.trapOff).xct = s.xct := rfl

@[simp] theorem trapOff_freeIdx (s : State) : (s.trapOff).freeIdx = s.freeIdx := rfl

@[simp] theorem trapOff_dchDue (s : State) : (s.trapOff).dchDue = s.dchDue := rfl

@[simp] theorem trapOff_testErrors (s : State) : (s.trapOff).testErrors = s.testErrors := rfl

@[simp] theorem trapOff_inputs (s : State) : (s.trapOff).inputs = s.inputs := rfl

@[simp] theorem trapOff_outputs (s : State) : (s.trapOff).outputs = s.outputs := rfl

end Sys2Proof.Laws
end

