-- ==== Sys2Proof/Laws/Ops.lean ====
section
/-!
SUPPORT. What each shared operation does, once: how a piece of an instruction runs, and in supervisor mode the value and the
next state of every reference, chain, push, pop and trap. The claims about instructions cite these and unfold nothing.
-/

namespace Sys2Proof.Laws

open Sys2Proof.Machine

/-! ## Running a piece of an instruction -/

@[simp] theorem run_pure {α : Type} (x : α) (s : State) : (pure x : M α) s = .ok x s := rfl

@[simp] theorem run_get (s : State) : (get : M State) s = .ok s s := rfl

@[simp] theorem run_set (t s : State) : (set t : M Unit) s = .ok () t := rfl

@[simp] theorem run_modify (f : State → State) (s : State) : (modify f : M Unit) s = .ok () (f s) := rfl

@[simp] theorem run_stop {α : Type} (e : Stop) (s : State) : (stop e : M α) s = .error e s := rfl

theorem run_bind {α β : Type} (m : M α) (f : α → M β) (s : State) :
    (m >>= f) s = match m s with
      | .ok a t => f a t
      | .error e t => .error e t := by
  show EStateM.bind m f s = _
  unfold EStateM.bind
  cases m s <;> rfl

/-- The rest of a sequence whose first part goes on. -/
theorem run_bind_ok {α β : Type} {m : M α} {f : α → M β} {s t : State} {a : α} (h : m s = .ok a t) :
    (m >>= f) s = f a t := by
  rw [run_bind, h]

/-- A sequence whose first part stops. -/
theorem run_bind_error {α β : Type} {m : M α} {f : α → M β} {s t : State} {e : Stop} (h : m s = .error e t) :
    (m >>= f) s = .error e t := by
  rw [run_bind, h]

/-- An instruction that goes on to its end. -/
theorem runInstr_ok {m : M Unit} {s t : State} (h : m s = .ok () t) : runInstr m s = .next t := by
  unfold runInstr
  rw [h]
  rfl

/-- An instruction that a MAP protection fault ends. -/
theorem runInstr_mapFault {m : M Unit} {s t : State} {k : MapFaultKind} (h : m s = .error (.mapFault k) t) :
    runInstr m s = outcomeOf (mapFaultEntry k t) := by
  unfold runInstr
  rw [h]
  rfl

/-! ## Registers -/

@[simp] theorem run_getAc (i : AcNo) (s : State) : getAc i s = .ok (s.ac.get i) s := rfl

@[simp] theorem run_setAc (i : AcNo) (v : Word) (s : State) : setAc i v s = .ok () (s.withAc i v) := rfl

@[simp] theorem run_getFpac (i : AcNo) (s : State) : getFpac i s = .ok (s.fpac.get i) s := rfl

@[simp] theorem run_setFpac (i : AcNo) (v : QWord) (s : State) : setFpac i v s = .ok () (s.withFpac i v) := rfl

@[simp] theorem run_setCry (c : Bool) (s : State) : setCry c s = .ok () { s with cry := c } := rfl

@[simp] theorem run_setPc (a : Addr) (s : State) : setPc a s = .ok () (s.goto a) := rfl

@[simp] theorem run_advance (n : Nat) (s : State) : advance n s = .ok () (s.next n) := rfl

@[simp] theorem run_skipIf (n : Nat) (c : Bool) (s : State) : skipIf n c s = .ok () (s.nextSkip n c) := rfl

@[simp] theorem run_setFpsr (f : Fpsr) (s : State) : setFpsr f s = .ok () { s with fpsr := f } := rfl

@[simp] theorem run_modifyFpsr (g : Fpsr → Fpsr) (s : State) : modifyFpsr g s = .ok () { s with fpsr := g s.fpsr } := rfl

@[simp] theorem run_emit (o : HostOutput) (s : State) : emit o s = .ok () { s with outputs := o :: s.outputs } := rfl

@[simp] theorem run_drawFree (n : Nat) (s : State) :
    drawFree n s = .ok ((Config.free64 s.freeIdx).setWidth n) { s with freeIdx := s.freeIdx + 1 } := rfl

/-! ## References in supervisor mode -/

theorem addr_installed (s : State) (a : Addr) : a.toNat < s.cfg.boards.words := by
  have h := a.isLt
  cases s.cfg.boards <;> simp only [Config.MemBoards.words] <;> omega

/-- With the page-31 register at its reset value an unmapped logical address is the physical one (47_map R575). -/
theorem unmappedPhys_eq {s : State} (h : s.p31 = Config.page31Reset) (a : Addr) : unmappedPhys s a = a.toNat := by
  have ha := a.isLt
  unfold unmappedPhys
  split
  · next hp =>
    have : (logicalPage a).toNat = 31 := by rw [hp]; rfl
    simp only [logicalPage, BitVec.extractLsb'_toNat] at this
    rw [h, show Config.page31Reset.toNat = 31 from rfl]
    simp only [pageOffset]
    simp only [Nat.shiftRight_eq_div_pow] at this
    omega
  · rfl

/-- With no data channel transfer due the processor's reference follows at once. -/
theorem run_dchService {s : State} (h : Quiet s) : dchService s = .ok () s := by
  unfold dchService
  rw [run_bind, run_get]
  simp only [h.2]
  rfl

/-- A read of an installed word that is not in error (46_io R554). -/
theorem run_physRead {s : State} {pa : Nat} (hp : pa < s.cfg.boards.words) (hf : findFault s pa = none) :
    physRead pa s = .ok (Memory.readWord s.mem pa) s := by
  unfold physRead
  rw [run_bind, run_get]
  simp only [hp, if_true, hf]
  rfl

/-- A read of an installed word in error (46_io R554). -/
theorem run_physRead_fault {s : State} {pa : Nat} {f : MemFault} (hp : pa < s.cfg.boards.words)
    (hf : findFault s pa = some f) : physRead pa s = .ok (faultyWord f s) (faultFound f s) := by
  unfold physRead
  rw [run_bind, run_get]
  simp only [hp, if_true, hf]
  rw [run_bind, run_set]
  rfl

/-- A write of an installed word that is not in error, in every mode (46_io R554). -/
theorem run_physWrite {s : State} {pa : Nat} (hp : pa < s.cfg.boards.words) (hf : findFault s pa = none) (v : Word) :
    physWrite pa v s = .ok () { s with mem := Memory.writeWord s.mem pa v } := by
  unfold physWrite
  rw [run_bind, run_get]
  simp only [hp, if_true, hf]
  rfl

/-- A write of an installed word in error, its check code with it (46_io R555). -/
theorem run_physWrite_fault {s : State} {pa : Nat} {f : MemFault} (hp : pa < s.cfg.boards.words)
    (hf : findFault s pa = some f) (hw : erccWrites s.ercc = true) (v : Word) :
    physWrite pa v s = .ok () (storeWord pa v s) := by
  unfold physWrite
  rw [run_bind, run_get]
  simp only [hp, if_true, hf, hw]
  rfl

/-- Every data bit and every check bit has one row of the table of fault codes, which the check corrects (46_io R557). -/
theorem codeOf_bit :
    (∀ n < 16, faultMeaning (codeOf (.dataBit n)) = .dataBit n) ∧
      (∀ n < 6, faultMeaning (codeOf (.checkBit n)) = .checkBit n) := by decide

/-- An error in one bit has the code of that bit, whatever the free value. -/
theorem errorCode_bit :
    (∀ n < 16, ∀ x : BitVec 6, errorCode (0x8000#16 >>> n) 0 x = dataCodes.getD n 0) ∧
      ∀ n < 6, ∀ x : BitVec 6, errorCode 0 (0x20#6 >>> n) x = checkCodes.getD n 0 := by
  refine ⟨?_, ?_⟩ <;> · intro n hn; interval_cases n <;> (intro x; rfl)

/-- Two inverted bits are two rows of the table. -/
theorem errorBits_two : ∀ j < 22, ∀ i < j,
    (errorBits (((0x200000#22 >>> i) ||| (0x200000#22 >>> j)).extractLsb' 6 16)
      (((0x200000#22 >>> i) ||| (0x200000#22 >>> j)).extractLsb' 0 6)).length = 2 := by decide +kernel

/-- Whatever the free value, an error in two bits has a code of no single bit and of no more than two. -/
theorem twoBitCodes_none : ∀ x : BitVec 6,
    twoBitCodes.getD (x.toNat % twoBitCodes.length) 0 ∉ 0 :: dataCodes ++ checkCodes ++ manyCodes := by decide +kernel

/-- The fault code of an error is one the table gives, whatever the free value (46_io R557). -/
theorem errorCode_right (data : Word) (check x : BitVec 6) : FaultCodeRight data check (errorCode data check x) := by
  refine ⟨?_, ?_, ?_⟩
  · rintro n hn rfl rfl; exact errorCode_bit.1 n hn x
  · rintro n hn rfl rfl; exact errorCode_bit.2 n hn x
  · intro i j hij hj h
    have h1 : (data ++ check : BitVec (16 + 6)).extractLsb' 6 16 = data := by
      ext k hk
      simp only [BitVec.getElem_extractLsb', BitVec.getLsbD_append]
      simp [BitVec.getLsbD_eq_getElem hk]
    have h2 : (data ++ check : BitVec (16 + 6)).extractLsb' 0 6 = check := by
      ext k hk
      simp only [BitVec.getElem_extractLsb', BitVec.getLsbD_append]
      simp [hk]
    have l := errorBits_two j hj i hij
    rw [← h, h1, h2] at l
    obtain ⟨a, b, e⟩ := List.length_eq_two.mp l
    unfold errorCode
    rw [e]
    exact twoBitCodes_none x

/-- An error put into a word: none, or one whose code is an error code of its bits (46_io R557). -/
theorem run_putError (addr : BitVec 20) (data : Word) (check : BitVec 6) (s : State) :
    putError addr data check s = .ok () (if data = 0 ∧ check = 0 then { s with memFaults := dropFault s.memFaults addr.toNat }
      else { s with
        memFaults := ⟨addr, data, check, errorCode data check ((Config.free64 s.freeIdx).setWidth 6)⟩ ::
          dropFault s.memFaults addr.toNat
        freeIdx := s.freeIdx + 1 }) := by
  unfold putError
  rw [run_bind_ok (run_modify _ s)]
  by_cases h : data = 0 ∧ check = 0
  · rw [if_pos (by simpa using h), if_pos h, run_pure]
  · rw [if_neg (by simpa using h), if_neg h]
    rfl

/-- A write of an installed word in error without a check code (46_io R555): nothing, or the error of the word written
against the one its check code belongs to. -/
theorem run_physWrite_unchecked {s : State} {pa : Nat} {f : MemFault} (hp : pa < s.cfg.boards.words)
    (hf : findFault s pa = some f) (hw : erccWrites s.ercc = false) (v : Word) :
    physWrite pa v s = if v = rawWord s.mem f then .ok () s
      else putError f.addr (v ^^^ Memory.readWord s.mem f.addr.toNat) f.check s := by
  unfold physWrite
  rw [run_bind, run_get]
  simp only [hp, if_true, hf, hw, Bool.false_eq_true, if_false, writeUnchecked]
  rw [run_bind, run_get]
  simp only
  split <;> rfl

theorem quiet_findFault {s : State} (h : Quiet s) (pa : Nat) : findFault s pa = none := by
  unfold findFault
  rw [h.1]
  rfl

/-- The processor's read where memory is quiet. -/
theorem run_cpuRead {s : State} (h : Quiet s) {pa : Nat} (hp : pa < s.cfg.boards.words) :
    cpuRead pa s = .ok (Memory.readWord s.mem pa) s := by
  unfold cpuRead
  rw [run_bind_ok (run_dchService h), run_physRead hp (quiet_findFault h pa)]

/-- A write where memory is quiet changes memory only. -/
theorem run_physWrite_quiet {s : State} (h : Quiet s) {pa : Nat} (hp : pa < s.cfg.boards.words) (v : Word) :
    physWrite pa v s = .ok () { s with mem := Memory.writeWord s.mem pa v } := by
  exact run_physWrite hp (quiet_findFault h pa) v

/-- The processor's write where memory is quiet. -/
theorem run_cpuWrite {s : State} (h : Quiet s) {pa : Nat} (hp : pa < s.cfg.boards.words) (v : Word) :
    cpuWrite pa v s = .ok () { s with mem := Memory.writeWord s.mem pa v } := by
  unfold cpuWrite
  rw [run_bind_ok (run_dchService h), run_physWrite_quiet h hp]

theorem run_memRead {s : State} (h : Supervisor s) (a : Addr) : memRead a s = .ok (s.wordAt a) s := by
  unfold memRead
  rw [run_bind, run_get]
  simp only [h.1, Bool.false_eq_true, if_false, unmappedPhys_eq h.2.2.2.1]
  exact run_cpuRead h.2.2.2.2 (addr_installed s a)

/-- A write in unmapped mode, whichever way the word is written. -/
theorem run_memWriteBy {s : State} (h : Supervisor s) (wr : Nat → Word → M Unit) (a : Addr) (v : Word) :
    memWriteBy wr a v s = wr a.toNat v s := by
  unfold memWriteBy
  rw [run_bind, run_get]
  simp only [h.1, Bool.false_eq_true, if_false, unmappedPhys_eq h.2.2.2.1]

theorem run_memWrite {s : State} (h : Supervisor s) (a : Addr) (v : Word) :
    memWrite a v s = .ok () (s.withWord a v) :=
  (run_memWriteBy h cpuWrite a v).trans (run_cpuWrite h.2.2.2.2 (addr_installed s a) v)

/-- The write of an instruction that holds the memory bus (20_memory R141). -/
theorem run_memWriteHeld {s : State} (h : Supervisor s) (a : Addr) (v : Word) :
    memWriteHeld a v s = .ok () (s.withWord a v) :=
  (run_memWriteBy h physWrite a v).trans (run_physWrite_quiet h.2.2.2.2 (addr_installed s a) v)

theorem run_dataRead {s : State} (h : Supervisor s) (a : Addr) : dataRead a s = .ok (s.wordAt a) s := by
  unfold dataRead
  rw [run_bind, run_get]
  simp only [h.2.2.1, Bool.false_eq_true, if_false, run_memRead h]

theorem run_dataWrite {s : State} (h : Supervisor s) (a : Addr) (v : Word) :
    dataWrite a v s = .ok () (s.withWord a v) := by
  unfold dataWrite
  rw [run_bind, run_get]
  simp only [h.2.2.1, Bool.false_eq_true, if_false, run_memWrite h]

theorem run_completeEnable {s : State} (h : Supervisor s) : completeEnable s = .ok () s := by
  unfold completeEnable
  simp [h.2.1]

/-- A chain whose pointers `rd` reads as supervisor mode does. -/
theorem run_chain {s : State} (h : Supervisor s) {rd : Addr → M Word} (hr : ∀ a, rd a s = .ok (s.wordAt a) s) :
    ∀ (n level : Nat) (a : Addr),
      chain rd n level a s =
        match s.follow n a with
        | some e => .ok e s
        | none => .error (.fault .indirectionLoop) s
  | 0, _, _ => rfl
  | n + 1, level, a => by
    unfold chain State.follow
    rw [run_bind, run_get]
    simp only [indirectLimit, h.1, Bool.false_and, Bool.false_eq_true, if_false]
    rw [run_bind_ok (hr a), run_bind_ok (run_completeEnable h)]
    by_cases hb : (s.wordAt a).msb = true
    · simp only [hb, if_true]
      exact run_chain h hr n (level + 1) _
    · simp only [hb, Bool.false_eq_true, if_false]
      rfl

theorem run_resolveBy {s : State} (h : Supervisor s) {rd : Addr → M Word} (hr : ∀ a, rd a s = .ok (s.wordAt a) s)
    {ind : Bool} {ia e : Addr} (he : s.resolved ind ia = some e) : resolveBy rd ind ia s = .ok e s := by
  unfold resolveBy
  unfold State.resolved State.pointerEnd at he
  cases ind
  · simp only [Bool.false_eq_true, if_false, Option.some.injEq] at he ⊢
    rw [he]; rfl
  · simp only [if_true] at he ⊢
    rw [run_chain h hr, he]

theorem run_resolve {s : State} (h : Supervisor s) {ind : Bool} {ia e : Addr} (he : s.resolved ind ia = some e) :
    resolve ind ia s = .ok e s := run_resolveBy h (run_memRead h) he

theorem run_resolveWord {s : State} (h : Supervisor s) {w : Word} {e : Addr} (he : s.wordTarget w = some e) :
    resolveWord w s = .ok e s := run_resolve h he

theorem run_indirectAt {s : State} (h : Supervisor s) {a e : Addr} (he : s.pointerEnd a = some e) :
    indirectAt a s = .ok e s := run_resolve (ind := true) h he

theorem run_shortEa {s : State} (h : Supervisor s) {ea : ShortAddr} {e : Addr} (he : s.shortAt ea = some e) :
    shortEa ea s = .ok e s := by
  unfold shortEa
  rw [run_bind, run_get]
  exact run_resolve h he

theorem run_extEa {s : State} (h : Supervisor s) {ea : ExtAddr} {e : Addr} (he : s.extAt ea = some e) :
    extEa ea s = .ok e s := by
  unfold extEa
  rw [run_bind, run_get]
  exact run_resolve h he

theorem run_shortEaData {s : State} (h : Supervisor s) {ea : ShortAddr} {e : Addr} (he : s.shortAt ea = some e) :
    shortEaData ea s = .ok e s := by
  unfold shortEaData
  rw [run_bind, run_get]
  exact run_resolveBy h (run_dataRead h) he

theorem run_extEaData {s : State} (h : Supervisor s) {ea : ExtAddr} {e : Addr} (he : s.extAt ea = some e) :
    extEaData ea s = .ok e s := by
  unfold extEaData
  rw [run_bind, run_get]
  exact run_resolveBy h (run_dataRead h) he

/-- An endless chain stops the model (20_memory R115). -/
theorem run_resolve_endless {s : State} (h : Supervisor s) {ia : Addr} (he : s.pointerEnd ia = none) :
    resolve true ia s = .error (.fault .indirectionLoop) s := by
  unfold resolve resolveBy
  simp only [if_true]
  rw [run_chain h (run_memRead h), show s.follow Config.chainFuel ia = none from he]

/-! ## Supervisor mode is kept -/

theorem supervisor_withWord {s : State} (h : Supervisor s) (a : Addr) (v : Word) : Supervisor (s.withWord a v) := h

theorem supervisor_withAc {s : State} (h : Supervisor s) (i : AcNo) (v : Word) : Supervisor (s.withAc i v) := h

theorem supervisor_pushed {s : State} (h : Supervisor s) (v : Word) : Supervisor (s.pushed v) := h

theorem supervisor_dropped {s : State} (h : Supervisor s) : Supervisor s.dropped := h

theorem supervisor_pushedAll : ∀ {s : State}, Supervisor s → ∀ vs : List Word, Supervisor (s.pushedAll vs)
  | _, h, [] => h
  | _, h, v :: vs => supervisor_pushedAll (supervisor_pushed h v) vs

theorem supervisor_withBlock {s : State} (h : Supervisor s) (ret : Addr) : Supervisor (s.withBlock ret) :=
  supervisor_pushedAll h _

/-! ## The stack in supervisor mode -/

theorem run_push {s : State} (h : Supervisor s) (v : Word) : push v s = .ok () (s.pushed v) := by
  unfold push
  rw [run_bind_ok (run_memRead h _), run_bind_ok (run_memWrite h _ _)]
  exact run_memWrite (s := s.withWord _ v) h _ _

theorem run_pop {s : State} (h : Supervisor s) : pop s = .ok s.top s.dropped := by
  unfold pop
  rw [run_bind_ok (run_memRead h _), run_bind_ok (run_memRead h _), run_bind_ok (run_memWrite h _ _)]
  rfl

theorem run_pushAc {s : State} (h : Supervisor s) (i : AcNo) {v : Word} (hv : s.ac.get i = v) :
    pushAc i s = .ok () (s.pushed v) := by
  unfold pushAc
  rw [run_bind, run_getAc, hv]
  exact run_push h _

theorem run_pushBlock {s : State} (h : Supervisor s) (ret : Addr) : pushBlock ret s = .ok () (s.withBlock ret) := by
  unfold pushBlock
  have h1 := supervisor_pushed h (s.ac.get 0)
  have h2 := supervisor_pushed h1 (s.ac.get 1)
  have h3 := supervisor_pushed h2 (s.ac.get 2)
  have h4 := supervisor_pushed h3 (s.ac.get 3)
  rw [run_bind_ok (run_pushAc h 0 rfl), run_bind_ok (run_pushAc h1 1 (v := s.ac.get 1) (by simp)),
    run_bind_ok (run_pushAc h2 2 (v := s.ac.get 2) (by simp)),
    run_bind_ok (run_pushAc h3 3 (v := s.ac.get 3) (by simp)), run_bind_ok (run_get _)]
  simp only [pushed_cry]
  rw [run_push h4]
  rfl

/-- The end of an instruction that pushed, where the stack has room (44_stack R434). -/
theorem run_finishAt {s : State} (h : Supervisor s) (ho : s.overflows = false) (a : Addr) :
    finishAt a s = .ok () (s.goto a) := by
  unfold finishAt
  rw [run_bind_ok (run_memRead h _), run_bind_ok (run_memRead h _)]
  have : ¬ (s.wordAt slLoc).toNat < (s.wordAt spLoc).toNat := of_decide_eq_false ho
  simp only [this, if_false, run_setPc]

/-- The stack after the first two actions of a stack fault (44_stack R435). -/
theorem run_stackFault {s : State} (h : Supervisor s) (ret t : Addr)
    (ht : (((s.withWord spLoc (s.wordAt spLoc &&& 0o077777)).withWord slLoc
      ((s.withWord spLoc (s.wordAt spLoc &&& 0o077777)).wordAt slLoc ||| 0o100000)).withBlock ret).pointerEnd sfaLoc =
        some t) :
    stackFault ret s = .ok () ((((s.withWord spLoc (s.wordAt spLoc &&& 0o077777)).withWord slLoc
      ((s.withWord spLoc (s.wordAt spLoc &&& 0o077777)).wordAt slLoc ||| 0o100000)).withBlock ret).goto t) := by
  unfold stackFault
  have h1 := supervisor_withWord h spLoc (s.wordAt spLoc &&& 0o077777)
  have h2 := supervisor_withWord h1 slLoc ((s.withWord spLoc (s.wordAt spLoc &&& 0o077777)).wordAt slLoc ||| 0o100000)
  rw [run_bind_ok (run_memRead h _), run_bind_ok (run_memWrite h _ _), run_bind_ok (run_memRead h1 _),
    run_bind_ok (run_memWrite h1 _ _), run_bind_ok (run_pushBlock h2 ret),
    run_bind_ok (run_indirectAt (supervisor_withBlock h2 ret) ht)]
  rfl

/-- A trap through a return block, where the stack has room (44_stack R432, 60_exceptions R620). -/
theorem run_takeTrap {s : State} (h : Supervisor s) {loc ret t : Addr} (ht : (s.withBlock ret).pointerEnd loc = some t)
    (ho : (s.withBlock ret).overflows = false) : takeTrap loc ret s = .ok () ((s.withBlock ret).goto t) := by
  unfold takeTrap
  have hb := supervisor_withBlock h ret
  rw [run_bind_ok (run_pushBlock h ret), run_bind_ok (run_indirectAt hb ht)]
  exact run_finishAt hb ho t

/-- The return from a trap (44_stack R443). -/
theorem run_popBlock {s : State} (h : Supervisor s) : popBlock s = .ok (s.top.setWidth 15) s.blockPopped := by
  unfold popBlock popAcs
  simp only [bind_assoc]
  refine (run_bind_ok (run_pop h)).trans ?_
  refine (run_bind_ok (run_setCry _ _)).trans ?_
  refine (run_bind_ok (run_pop (s := { s.dropped with cry := s.top.msb }) h)).trans ?_
  refine (run_bind_ok (run_setAc _ _ _)).trans ?_
  refine (run_bind_ok (run_pop (s := { s.dropped with cry := s.top.msb }.popInto 3) h)).trans ?_
  refine (run_bind_ok (run_setAc _ _ _)).trans ?_
  refine (run_bind_ok (run_pop (s := ({ s.dropped with cry := s.top.msb }.popInto 3).popInto 2) h)).trans ?_
  refine (run_bind_ok (run_setAc _ _ _)).trans ?_
  refine (run_bind_ok (run_pop (s := (({ s.dropped with cry := s.top.msb }.popInto 3).popInto 2).popInto 1) h)).trans ?_
  rfl

/-! ## Bytes in supervisor mode -/

theorem run_byteRead {s : State} (h : Supervisor s) (bp : Word) : byteRead bp s = .ok (s.byteAt bp) s := by
  unfold byteRead byteReadAt
  rw [run_bind_ok (run_memRead h _)]
  rfl

theorem run_byteWrite {s : State} (h : Supervisor s) (bp : Word) (b : BitVec 8) :
    byteWrite bp b s = .ok () (s.withByteAt bp b) := by
  unfold byteWrite byteWriteAt
  rw [run_bind_ok (run_memRead h _)]
  exact run_memWrite h _ _

/-! ## I/O -/

/-- An I/O instruction that is not protected: its transfer, its command, the next word (46_io R502, 47_map R579). -/
theorem run_ioProtect {s : State} (h : (s.mapOn && !s.ms.lef && s.ms.iop) = false) : ioProtect s = .ok () s := by
  unfold ioProtect
  rw [run_bind, run_get]
  simp only [h, Bool.false_eq_true, if_false]
  rfl

end Sys2Proof.Laws
end

