-- ==== Sys2Proof/Laws/Mapped.lean ====
section
/-!
SUPPORT. What a reference of the processor does in user mode, and what a data channel transfer due before it does.
-/

namespace Sys2Proof.Laws

open Sys2Proof.Machine

/-! ## The data channel -/

/-- The transfers due before a reference of the processor are made, and no others. -/
theorem run_dchService_cons {s : State} {rs : List DchRequest} {due : List (List DchRequest)} (h : s.dchDue = rs :: due) :
    dchService s = dchTransfers rs { s with dchDue := due } := by
  unfold dchService
  rw [run_bind_ok (run_get s)]
  simp only [h]
  rw [run_bind_ok (run_set _ s)]

/-! ## Mapped references, with memory quiet -/

/-- A read of a valid, installed page (47_map R576, R594). -/
theorem run_memRead_mapped {s : State} (hq : Quiet s) {a : Addr} (h : s.mapped a = true) :
    memRead a s = .ok (s.mappedWord a) s.referred := by
  simp only [State.mapped, Bool.and_eq_true, Bool.not_eq_true', decide_eq_true_eq] at h
  unfold memRead
  rw [run_bind_ok (run_get s), if_pos h.1.1, if_neg (by simp [h.1.2])]
  unfold clearSc
  rw [run_bind_ok (run_modify _ s)]
  exact run_cpuRead (s := s.referred) hq h.2

/-- A read of an invalid page changes nothing (47_map R577). -/
theorem run_memRead_invalid {s : State} {a : Addr} (hm : s.mapOn = true) (h : (userEntry s a).invalid = true) :
    memRead a s = .error (.mapFault .validity) s := by
  unfold memRead
  rw [run_bind_ok (run_get s), if_pos hm, if_pos h, run_stop]

/-- A write to a valid, installed page without protection (47_map R576, R578). -/
theorem run_memWrite_mapped {s : State} (hq : Quiet s) {a : Addr} (h : s.mapped a = true)
    (hw : writeProtected s (userEntry s a) = false) (v : Word) : memWrite a v s = .ok () (s.withMappedWord a v) := by
  simp only [State.mapped, Bool.and_eq_true, Bool.not_eq_true', decide_eq_true_eq] at h
  unfold memWrite memWriteBy
  rw [run_bind_ok (run_get s), if_pos h.1.1, if_neg (by simp [h.1.2]), if_neg (by simp [hw])]
  unfold clearSc
  rw [run_bind_ok (run_modify _ s)]
  exact run_cpuWrite (s := s.referred) hq h.2 v

/-- A write to an invalid page changes nothing (47_map R577). -/
theorem run_memWrite_invalid {s : State} {a : Addr} (hm : s.mapOn = true) (h : (userEntry s a).invalid = true) (v : Word) :
    memWrite a v s = .error (.mapFault .validity) s := by
  unfold memWrite memWriteBy
  rw [run_bind_ok (run_get s), if_pos hm, if_pos h, run_stop]

/-- A write to a protected page changes nothing (47_map R578). -/
theorem run_memWrite_protected {s : State} {a : Addr} (hm : s.mapOn = true) (hi : (userEntry s a).invalid = false)
    (h : writeProtected s (userEntry s a) = true) (v : Word) : memWrite a v s = .error (.mapFault .write) s := by
  unfold memWrite memWriteBy
  rw [run_bind_ok (run_get s), if_pos hm, if_neg (by simp [hi]), if_pos h, run_stop]

/-! ## Chains in user mode -/

/-- A mapped reference leaves every chain as it was. -/
theorem followMapped_referred (s : State) : ∀ (n level : Nat) (a : Addr),
    s.referred.followMapped n level a = s.followMapped n level a
  | 0, _, _ => rfl
  | n + 1, level, a => by
    unfold State.followMapped
    rw [followMapped_referred s n]
    rfl

/-- With no user enable pending none is completed. -/
theorem run_completeEnable_none {s : State} (h : s.mapPending = false) : completeEnable s = .ok () s := by
  unfold completeEnable
  simp [h]

/-- A chain whose pointers stand in valid, installed pages, within the limit of indirect protection (20_memory R114, 47_map
R585). -/
theorem run_chain_mapped : ∀ (n level : Nat) (s : State) (a e : Addr), Quiet s → s.mapPending = false →
    s.followMapped n level a = some e → chain memRead n level a s = .ok e s.referred
  | 0, _, _, _, _, _, _, h => by simp [State.followMapped] at h
  | n + 1, level, s, a, e, hq, hp, h => by
    unfold State.followMapped at h
    split at h
    · cases h
    · next hg =>
      simp only [Bool.or_eq_true, Bool.not_eq_true', not_or, Bool.not_eq_true, Bool.not_eq_false] at hg
      unfold chain
      rw [run_bind_ok (run_get s), if_neg (by simp [hg.1]), run_bind_ok (run_memRead_mapped hq hg.2),
        run_bind_ok (run_completeEnable_none (s := s.referred) hp)]
      by_cases hm : (s.mappedWord a).msb = true
      · rw [if_pos hm] at h ⊢
        rw [← followMapped_referred s] at h
        exact run_chain_mapped n (level + 1) s.referred _ e hq hp h
      · rw [if_neg hm] at h ⊢
        cases h
        rfl

end Sys2Proof.Laws
end

