-- ==== Sys2Proof/Laws/Memory.lean ====
section
/-!
SUPPORT. Memory: reading after a write, the canonical form and that every operation keeps it, and the same for words and for
the words of claims.
-/

namespace Sys2Proof.Laws

open Sys2Proof.Machine

/-! ## Bytes -/

theorem read_erase_same (m : List Host.Cell) (a : Nat) : Memory.read (Memory.erase m a) a = Memory.unlisted := by
  induction m with
  | nil => rfl
  | cons c m ih =>
    unfold Memory.erase
    split
    · exact ih
    · unfold Memory.read
      simp [*]

theorem read_erase_other (m : List Host.Cell) {a b : Nat} (h : a ≠ b) :
    Memory.read (Memory.erase m a) b = Memory.read m b := by
  induction m with
  | nil => rfl
  | cons c m ih =>
    unfold Memory.erase
    split
    · next hc =>
      rw [ih]
      conv_rhs => unfold Memory.read
      rw [if_neg (by omega)]
    · unfold Memory.read
      rw [ih]

theorem read_insert_same (m : List Host.Cell) (a : Nat) (b : BitVec 8) (h : ∀ c ∈ m, c.1 ≠ a) :
    Memory.read (Memory.insert m a b) a = b := by
  induction m with
  | nil => simp [Memory.insert, Memory.read]
  | cons c m ih =>
    unfold Memory.insert
    split
    · simp [Memory.read]
    · unfold Memory.read
      rw [if_neg (h c (by simp))]
      exact ih fun d hd => h d (by simp [hd])

theorem read_insert_other (m : List Host.Cell) {a x : Nat} (b : BitVec 8) (h : a ≠ x) :
    Memory.read (Memory.insert m a b) x = Memory.read m x := by
  induction m with
  | nil => simp [Memory.insert, Memory.read, h]
  | cons c m ih =>
    unfold Memory.insert
    split
    · conv_lhs => unfold Memory.read
      rw [if_neg h]
    · unfold Memory.read
      rw [ih]

theorem erase_ne (m : List Host.Cell) (a : Nat) : ∀ c ∈ Memory.erase m a, c.1 ≠ a := by
  induction m with
  | nil => simp [Memory.erase]
  | cons c m ih =>
    unfold Memory.erase
    split
    · exact ih
    · simp only [List.mem_cons, forall_eq_or_imp]
      exact ⟨‹_›, ih⟩

/-- A byte reads as it was written. -/
theorem read_write_same (m : List Host.Cell) (a : Nat) (b : BitVec 8) : Memory.read (Memory.write m a b) a = b := by
  unfold Memory.write
  split
  · next h => rw [read_erase_same, h]
  · exact read_insert_same _ _ _ (erase_ne m a)

/-- A write leaves every other byte. -/
theorem read_write_other (m : List Host.Cell) {a x : Nat} (b : BitVec 8) (h : a ≠ x) :
    Memory.read (Memory.write m a b) x = Memory.read m x := by
  unfold Memory.write
  split
  · exact read_erase_other m h
  · rw [read_insert_other _ _ h, read_erase_other m h]

/-! ## Words -/

@[simp] theorem wordOfBytes_halves (v : Word) : wordOfBytes (highByte v) (lowByte v) = v := by
  unfold wordOfBytes highByte lowByte
  apply BitVec.eq_of_getLsbD_eq
  intro i hi
  simp only [BitVec.getLsbD_append, BitVec.getLsbD_extractLsb']
  by_cases h : i < 8
  · simp [h]
  · simp [h, show i - 8 < 8 by omega, show 8 + (i - 8) = i by omega]

/-- A word reads as it was written. -/
@[simp] theorem readWord_writeWord_same (m : List Host.Cell) (pa : Nat) (v : Word) :
    Memory.readWord (Memory.writeWord m pa v) pa = v := by
  unfold Memory.readWord Memory.writeWord
  rw [read_write_other _ _ (by omega), read_write_same, read_write_same, wordOfBytes_halves]

/-- A word write leaves every byte outside the word. -/
theorem read_writeWord_other (m : List Host.Cell) {pa b : Nat} (v : Word) (h : b / 2 ≠ pa) :
    Memory.read (Memory.writeWord m pa v) b = Memory.read m b := by
  unfold Memory.writeWord
  rw [read_write_other _ _ (by omega), read_write_other _ _ (by omega)]

/-- A word write leaves every other word. -/
theorem readWord_writeWord_other (m : List Host.Cell) {pa pb : Nat} (v : Word) (h : pa ≠ pb) :
    Memory.readWord (Memory.writeWord m pa v) pb = Memory.readWord m pb := by
  unfold Memory.readWord
  rw [read_writeWord_other _ _ (by omega), read_writeWord_other _ _ (by omega)]

@[simp] theorem wordAt_withWord_same (s : State) (a : Addr) (v : Word) : (s.withWord a v).wordAt a = v :=
  readWord_writeWord_same _ _ _

theorem wordAt_withWord_other (s : State) {a b : Addr} (v : Word) (h : a ≠ b) :
    (s.withWord a v).wordAt b = s.wordAt b :=
  readWord_writeWord_other _ _ fun e => h (BitVec.eq_of_toNat_eq e)

/-! ## Where memory is the same -/

theorem sameOutside_refl (s : State) (l : List Addr) : SameOutside s s l :=
  fun _ _ => rfl

theorem SameOutside.trans {s t u : State} {l : List Addr} (h : SameOutside s t l) (k : SameOutside t u l) :
    SameOutside s u l := fun _ hb => (k _ hb).trans (h _ hb)

theorem SameOutside.mono {s t : State} {l k : List Addr} (h : SameOutside s t l) (hs : ∀ a ∈ l, a ∈ k) :
    SameOutside s t k := fun _ hb => h _ fun hm => hb <| by
  obtain ⟨a, ha, e⟩ := List.mem_map.mp hm
  exact List.mem_map.mpr ⟨a, hs a ha, e⟩

/-- A word stored changes that word's two bytes only. -/
theorem sameOutside_withWord (s : State) {a : Addr} {l : List Addr} (v : Word) (h : a ∈ l) :
    SameOutside s (s.withWord a v) l := fun _ hb =>
  read_writeWord_other _ _ fun e => hb (List.mem_map.mpr ⟨a, h, e.symm⟩)

/-! ## The canonical form -/

theorem wfFrom_le {lo hi : Nat} {m : List Host.Cell} (h : Memory.wfFrom hi m = true) (hl : lo ≤ hi) :
    Memory.wfFrom lo m = true := by
  cases m with
  | nil => rfl
  | cons c m =>
    simp only [Memory.wfFrom, Bool.and_eq_true, decide_eq_true_eq] at h ⊢
    exact ⟨⟨by omega, h.1.2⟩, h.2⟩

theorem wfFrom_erase (m : List Host.Cell) (a : Nat) :
    ∀ lo, Memory.wfFrom lo m = true → Memory.wfFrom lo (Memory.erase m a) = true := by
  induction m with
  | nil => intro lo h; exact h
  | cons c m ih =>
    intro lo h
    have hc := h
    simp only [Memory.wfFrom, Bool.and_eq_true, decide_eq_true_eq] at hc
    unfold Memory.erase
    split
    · exact wfFrom_le (ih _ hc.2) (by omega)
    · simp only [Memory.wfFrom, Bool.and_eq_true, decide_eq_true_eq]
      exact ⟨hc.1, ih _ hc.2⟩

theorem wfFrom_insert (m : List Host.Cell) (a : Nat) (b : BitVec 8) (hb : b ≠ Memory.unlisted) :
    ∀ lo, lo ≤ a → (∀ c ∈ m, c.1 ≠ a) → Memory.wfFrom lo m = true →
      Memory.wfFrom lo (Memory.insert m a b) = true := by
  induction m with
  | nil =>
    intro lo hl _ _
    simp [Memory.insert, Memory.wfFrom, hl, hb]
  | cons c m ih =>
    intro lo hl hn h
    simp only [Memory.wfFrom, Bool.and_eq_true, decide_eq_true_eq] at h
    have hc : c.1 ≠ a := hn c (by simp)
    unfold Memory.insert
    split
    · simp only [Memory.wfFrom, Bool.and_eq_true, decide_eq_true_eq]
      exact ⟨⟨hl, hb⟩, ⟨by omega, h.1.2⟩, h.2⟩
    · simp only [Memory.wfFrom, Bool.and_eq_true, decide_eq_true_eq]
      exact ⟨h.1, ih _ (by omega) (fun d hd => hn d (by simp [hd])) h.2⟩

/-- A byte write keeps the canonical form. -/
theorem wf_write {m : List Host.Cell} (h : Memory.wf m = true) (a : Nat) (b : BitVec 8) :
    Memory.wf (Memory.write m a b) = true := by
  unfold Memory.write
  split
  · exact wfFrom_erase m a 0 h
  · next hb => exact wfFrom_insert _ a b hb 0 (Nat.zero_le _) (erase_ne m a) (wfFrom_erase m a 0 h)

/-- A word write keeps the canonical form. -/
theorem wf_writeWord {m : List Host.Cell} (h : Memory.wf m = true) (pa : Nat) (v : Word) :
    Memory.wf (Memory.writeWord m pa v) = true := wf_write (wf_write h _ _) _ _

/-- The memory of the state after reset is in canonical form. -/
theorem wf_reset : Memory.wf State.reset.mem = true := rfl

/-- Putting an error into a word keeps memory. -/
theorem putError_mem (addr : BitVec 20) (data : Word) (check : BitVec 6) (s : State) :
    ∃ t, putError addr data check s = .ok () t ∧ t.mem = s.mem :=
  ⟨_, run_putError addr data check s, by split <;> rfl⟩

/-- Reading a physical word, which a correction may rewrite, keeps the canonical form. -/
theorem physRead_wf {s : State} (h : Memory.wf s.mem = true) (pa : Nat) :
    ∃ v t, physRead pa s = .ok v t ∧ Memory.wf t.mem = true := by
  by_cases hp : pa < s.cfg.boards.words
  · cases hf : findFault s pa with
    | none => exact ⟨_, _, run_physRead hp hf, h⟩
    | some f =>
      refine ⟨_, _, run_physRead_fault hp hf, ?_⟩
      unfold faultFound
      split
      · split
        · exact wf_writeWord h _ _
        · exact h
      · exact h
  · refine ⟨(Config.free64 s.freeIdx).setWidth 16, { s with freeIdx := s.freeIdx + 1 }, ?_, h⟩
    unfold physRead
    rw [run_bind, run_get]
    simp only [hp, if_false]
    exact run_drawFree 16 s

/-- Writing a physical word keeps the canonical form. -/
theorem physWrite_wf {s : State} (h : Memory.wf s.mem = true) (pa : Nat) (v : Word) :
    ∃ t, physWrite pa v s = .ok () t ∧ Memory.wf t.mem = true := by
  by_cases hp : pa < s.cfg.boards.words
  · cases hf : findFault s pa with
    | none => exact ⟨_, run_physWrite hp hf v, wf_writeWord h pa v⟩
    | some f =>
      by_cases hw : erccWrites s.ercc = true
      · exact ⟨_, run_physWrite_fault hp hf hw v, wf_writeWord h pa v⟩
      · rw [run_physWrite_unchecked hp hf (Bool.eq_false_iff.mpr hw) v]
        split
        · exact ⟨s, rfl, h⟩
        · obtain ⟨t, e, hm⟩ := putError_mem f.addr (v ^^^ Memory.readWord s.mem f.addr.toNat) f.check s
          exact ⟨t, e, by rw [hm]; exact h⟩
  · refine ⟨s, ?_, h⟩
    unfold physWrite
    rw [run_bind, run_get]
    simp only [hp, if_false]
    rfl

/-- A data channel transfer keeps the canonical form. -/
theorem dchTransfer_wf {s : State} (h : Memory.wf s.mem = true) (r : DchRequest) :
    ∃ t, dchTransfer r s = .ok () t ∧ Memory.wf t.mem = true := by
  cases r with
  | read map a =>
    obtain ⟨v, t, ht, hm⟩ := physRead_wf h (dchPhys s map a)
    refine ⟨{ t with outputs := .dchData v :: t.outputs }, ?_, hm⟩
    simp only [dchTransfer]
    rw [run_bind_ok (run_get s), run_bind_ok ht, run_emit]
  | write map a v =>
    obtain ⟨t, ht, hm⟩ := physWrite_wf h (dchPhys s map a) v
    refine ⟨t, ?_, hm⟩
    simp only [dchTransfer]
    rw [run_bind_ok (run_get s), ht]

/-- So do several, one after the other. -/
theorem dchTransfers_wf (rs : List DchRequest) :
    ∀ {s : State}, Memory.wf s.mem = true → ∃ t, dchTransfers rs s = .ok () t ∧ Memory.wf t.mem = true := by
  induction rs with
  | nil => exact fun {s} h => ⟨s, rfl, h⟩
  | cons r rs ih =>
    intro s h
    obtain ⟨t, ht, hm⟩ := dchTransfer_wf h r
    obtain ⟨u, hu, hw⟩ := ih hm
    exact ⟨u, by unfold dchTransfers; rw [run_bind_ok ht, hu], hw⟩

/-- Rewriting corrected words keeps the canonical form. -/
theorem mendAll_wf (fs : List MemFault) : ∀ {m : List Host.Cell}, Memory.wf m = true → Memory.wf (mendAll fs m) = true := by
  induction fs with
  | nil => exact fun h => h
  | cons f fs ih => exact fun h => ih (wf_writeWord h _ _)

/-! ## The self-test -/

/-- Filling memory completes; only memory, its errors and the counter of free values change, and no error is left below the
limit. -/
theorem fillMemory_ok (n : Nat) (s : State) :
    ∃ (m : List Host.Cell) (f : List MemFault) (k : Nat),
      fillMemory n s = .ok () { s with mem := m, memFaults := f, freeIdx := k } ∧
        ∀ x ∈ f, x ∈ s.memFaults ∧ n ≤ x.addr.toNat := by
  induction n generalizing s with
  | zero => exact ⟨_, _, _, rfl, fun x hx => ⟨hx, Nat.zero_le _⟩⟩
  | succ n ih =>
    obtain ⟨m, f, k, h, hf⟩ := ih (storeWord n ((Config.free64 s.freeIdx).setWidth 16) { s with freeIdx := s.freeIdx + 1 })
    refine ⟨m, f, k, h, fun x hx => ?_⟩
    obtain ⟨h1, h2⟩ := hf x hx
    simp only [storeWord, dropFault, List.mem_filter, decide_eq_true_eq] at h1
    exact ⟨h1.1, by omega⟩

/-- The self-test completes: installed memory is left with any values and no errors, and the first error, if any, is
displayed. -/
theorem selfTest_ok (s : State) :
    ∃ (m : List Host.Cell) (f : List MemFault) (k : Nat),
      selfTest s = .ok () (nextError s.testErrors { s with testErrors := [], mem := m, memFaults := f, freeIdx := k }) ∧
        ∀ x ∈ f, s.cfg.boards.words ≤ x.addr.toNat := by
  obtain ⟨m, f, k, h, hf⟩ := fillMemory_ok s.cfg.boards.words s
  refine ⟨m, f, k, ?_, fun x hx => (hf x hx).2⟩
  have hd : destroyMemory s = .ok () { s with mem := m, memFaults := f, freeIdx := k } := h
  simp only [selfTest, run_bind, hd]
  rfl

end Sys2Proof.Laws
end

