-- ==== Sys2Proof/Laws/PerInstr.lean ====
section
/-!
SUPPORT. For every instruction: the decoder reads it back from its own words (30_encoding R160 to R193).
-/

namespace Sys2Proof.Laws

set_option Elab.async false

/-! ## Fields -/

theorem acNo_cases {P : AcNo → Prop} (h0 : P 0) (h1 : P 1) (h2 : P 2) (h3 : P 3) (a : AcNo) : P a := by
  have : a = 0 ∨ a = 1 ∨ a = 2 ∨ a = 3 := by revert a; decide
  rcases this with rfl | rfl | rfl | rfl <;> assumption

theorem flagWord_flag (b : Bool) (a : BitVec 15) : decide (field (flagWord b a) 15 1 = 1) = b := by
  have h := a.isLt
  cases b <;> simp [field, flagWord] <;> omega

theorem flagWord_addr (b : Bool) (a : BitVec 15) : BitVec.ofNat 15 (field (flagWord b a) 0 15) = a := by
  have h := a.isLt
  apply BitVec.eq_of_toNat_eq
  cases b <;> simp [field, flagWord] <;> omega

theorem word_toNat {n : Nat} (h : n < 65536) : (word n).toNat = n := by
  simp [word, Nat.mod_eq_of_lt h]

theorem field_word {n : Nat} (h : n < 65536) (s k : Nat) : field (word n) s k = n / 2 ^ s % 2 ^ k := by
  simp [field, word_toNat h]

theorem bool_bit (b : Bool) : b.toNat < 2 := by cases b <;> decide

theorem index_bits (x : Index) : x.bits < 4 ∧ Index.ofBits x.bits = x := by cases x <;> decide

theorem shift_bits (x : Shift) : x.bits < 4 ∧ Shift.ofBits x.bits = x := by cases x <;> decide

theorem carry_bits (x : CarryInit) : x.bits < 4 ∧ CarryInit.ofBits x.bits = x := by cases x <;> decide

theorem skip_bits (x : Skip) : x.bits < 8 ∧ Skip.ofBits x.bits = x := by cases x <;> decide

theorem shortAddr_bits (ea : ShortAddr) : ea.bits < 2048 := by
  have h1 := bool_bit ea.ind
  have h2 := (index_bits ea.idx).1
  have h3 := ea.disp.isLt
  unfold ShortAddr.bits
  omega

theorem shortAddr_ofWord (k : Nat) (ea : ShortAddr) (h : k < 32) :
    ShortAddr.ofWord (word (2048 * k + ea.bits)) = ea := by
  have h1 := bool_bit ea.ind
  have h2 := (index_bits ea.idx).1
  have h3 := ea.disp.isLt
  have hb := shortAddr_bits ea
  have hn : 2048 * k + ea.bits < 65536 := by omega
  obtain ⟨ind, idx, disp⟩ := ea
  simp only [ShortAddr.bits] at *
  simp only [ShortAddr.ofWord, field_word hn]
  congr 1
  · cases ind <;> simp <;> omega
  · have : (2048 * k + (ind.toNat * 1024 + idx.bits * 256 + disp.toNat)) / 2 ^ 8 % 2 ^ 2 = idx.bits := by omega
    rw [this, (index_bits idx).2]
  · apply BitVec.eq_of_toNat_eq
    simp only [BitVec.toNat_ofNat]
    omega

theorem alcOps_bits (o : AlcOps) : ∃ x y z u v w : Nat, o.bits = x * 8192 + y * 2048 + z * 64 + u * 16 + v * 8 + w ∧
    x = o.acs.toNat ∧ y = o.acd.toNat ∧ z = o.shift.bits ∧ u = o.carry.bits ∧ v = o.noLoad.toNat ∧ w = o.skip.bits ∧
    x < 4 ∧ y < 4 ∧ z < 4 ∧ u < 4 ∧ v < 2 ∧ w < 8 :=
  ⟨_, _, _, _, _, _, rfl, rfl, rfl, rfl, rfl, rfl, rfl, o.acs.isLt, o.acd.isLt, (shift_bits o.shift).1,
    (carry_bits o.carry).1, bool_bit o.noLoad, (skip_bits o.skip).1⟩

theorem alcOps_ofWord (k : Nat) (o : AlcOps) (h : k < 8) : AlcOps.ofWord (word (0o100000 + k * 256 + o.bits)) = o := by
  obtain ⟨x, y, z, u, v, w, e, hx, hy, hz, hu, hv, hw, lx, ly, lz, lu, lv, lw⟩ := alcOps_bits o
  rw [e]
  have hn : 0o100000 + k * 256 + (x * 8192 + y * 2048 + z * 64 + u * 16 + v * 8 + w) < 65536 := by omega
  simp only [AlcOps.ofWord, acAt, field_word hn]
  obtain ⟨s, d, sh, c, nl, sk⟩ := o
  have e1 : (0o100000 + k * 256 + (x * 8192 + y * 2048 + z * 64 + u * 16 + v * 8 + w)) / 2 ^ 13 % 2 ^ 2 = x := by omega
  have e2 : (0o100000 + k * 256 + (x * 8192 + y * 2048 + z * 64 + u * 16 + v * 8 + w)) / 2 ^ 11 % 2 ^ 2 = y := by omega
  have e3 : (0o100000 + k * 256 + (x * 8192 + y * 2048 + z * 64 + u * 16 + v * 8 + w)) / 2 ^ 6 % 2 ^ 2 = z := by omega
  have e4 : (0o100000 + k * 256 + (x * 8192 + y * 2048 + z * 64 + u * 16 + v * 8 + w)) / 2 ^ 4 % 2 ^ 2 = u := by omega
  have e5 : (0o100000 + k * 256 + (x * 8192 + y * 2048 + z * 64 + u * 16 + v * 8 + w)) / 2 ^ 3 % 2 ^ 1 = v := by omega
  have e6 : (0o100000 + k * 256 + (x * 8192 + y * 2048 + z * 64 + u * 16 + v * 8 + w)) / 2 ^ 0 % 2 ^ 3 = w := by omega
  rw [e1, e2, e3, e4, e5, e6]
  subst hx hy hz hu hw
  simp only [(shift_bits sh).2, (carry_bits c).2, (skip_bits sk).2, BitVec.ofNat_toNat, BitVec.setWidth_eq]
  congr 1
  subst hv
  cases nl <;> rfl

/-- The words with bit 0 = 1 that are ALC words (30_encoding R163, R164). -/
theorem decodeWords_alc (lef : Bool) (k : Nat) (o : AlcOps) (w2 : Word) (h : k < 8) (hw : o.wf = true) :
    decodeWords lef (word (0o100000 + k * 256 + o.bits)) w2 =
      some (decodeAlc (word (0o100000 + k * 256 + o.bits))) ∧
    field (word (0o100000 + k * 256 + o.bits)) 8 3 = k := by
  have hl : o.noLoad.toNat * 8 + o.skip.bits ≠ 8 ∧ o.noLoad.toNat * 8 + o.skip.bits ≠ 9 := by
    obtain ⟨s, d, sh, c, nl, sk⟩ := o
    cases nl <;> cases sk <;>
      first | (constructor <;> simp [Skip.bits]; done) | simp [AlcOps.wf] at hw
  obtain ⟨x, y, z, u, v, w, e, hx, hy, hz, hu, hv, hw', lx, ly, lz, lu, lv, lw⟩ := alcOps_bits o
  rw [← hv, ← hw'] at hl
  rw [e]
  have hn : 0o100000 + k * 256 + (x * 8192 + y * 2048 + z * 64 + u * 16 + v * 8 + w) < 65536 := by omega
  have f1 : field (word (0o100000 + k * 256 + (x * 8192 + y * 2048 + z * 64 + u * 16 + v * 8 + w))) 13 3 = 4 + x := by
    rw [field_word hn]; omega
  have f2 : field (word (0o100000 + k * 256 + (x * 8192 + y * 2048 + z * 64 + u * 16 + v * 8 + w))) 0 4 = v * 8 + w := by
    rw [field_word hn]; omega
  refine ⟨?_, by rw [field_word hn]; omega⟩
  unfold decodeWords
  rw [f1, f2]
  split <;> first | omega | skip
  split <;> first | omega | rfl

/-- Words of the class that is neither a short reference, an I/O word nor an ALC word (30_encoding R163, R191). -/
theorem decodeWords_high {lef : Bool} {w w2 : Word} (h : 4 ≤ field w 13 3 ∧ field w 0 4 = 8) :
    decodeWords lef w w2 =
      match field w 4 2 with
      | 0 => decodeExt w w2
      | 1 => some (.xop (acAt w 13) (acAt w 11) (BitVec.ofNat 5 (field w 6 5)))
      | 2 => decodeFloat w w2
      | _ =>
        if field w 10 1 = 0 then some (.xop1 (acAt w 13) (acAt w 11) (BitVec.ofNat 4 (field w 6 4)))
        else decodeExtRef w w2 := by
  unfold decodeWords
  rw [h.2]
  split <;> first | omega | rfl

/-- The fields of an I/O word (46_io R501). -/
theorem io_fields (k x : Nat) (a : AcNo) (d : BitVec 6) (hk : k < 8) (hx : x < 4) :
    field (word (0o060000 + k * 256 + a.toNat * 2048 + x * 64 + d.toNat)) 13 3 = 3 ∧
    field (word (0o060000 + k * 256 + a.toNat * 2048 + x * 64 + d.toNat)) 8 3 = k ∧
    field (word (0o060000 + k * 256 + a.toNat * 2048 + x * 64 + d.toNat)) 6 2 = x ∧
    field (word (0o060000 + k * 256 + a.toNat * 2048 + x * 64 + d.toNat)) 11 2 = a.toNat ∧
    field (word (0o060000 + k * 256 + a.toNat * 2048 + x * 64 + d.toNat)) 0 6 = d.toNat ∧
    (word (0o060000 + k * 256 + a.toNat * 2048 + x * 64 + d.toNat)).toNat =
      0o060000 + k * 256 + a.toNat * 2048 + x * 64 + d.toNat := by
  have h1 := a.isLt
  have h2 := d.isLt
  have hn : 0o060000 + k * 256 + a.toNat * 2048 + x * 64 + d.toNat < 65536 := by omega
  simp only [field_word hn, word_toNat hn]
  refine ⟨?_, ?_, ?_, ?_, ?_, trivial⟩ <;> omega

/-- A processor-board device has a row of its own for this operation (30_encoding R193). -/
def boardRow (d k : Nat) : Bool :=
  match d with
  | 0o10 => k == 1
  | 0o11 => k == 2
  | 0o14 => k == 2
  | 0o43 => k == 1 || k == 2
  | 2 => k == 1 || k == 2 || k == 3
  | 1 => k == 1 || k == 2
  | _ => false

theorem decodeIoBoard_none {w : Word} (h : boardRow (field w 0 6) (field w 8 3) = false) : decodeIoBoard w = none := by
  unfold decodeIoBoard
  unfold boardRow at h
  split at h <;> simp_all

/-- An I/O word that no special row claims is decoded by the generic rows. -/
theorem decodeWords_generic {w w2 : Word} (h3 : field w 13 3 = 3) (hc : field w 0 6 ≠ 0o77) (hm : field w 0 6 ≠ 3)
    (hv : w.toNat ≠ 0o061777) (hb : boardRow (field w 0 6) (field w 8 3) = false) :
    decodeWords false w w2 = some (decodeIoGeneric w) := by
  unfold decodeWords
  rw [h3]
  simp only [Bool.false_eq_true, if_false, decodeIo, hv, decodeIoBoard_none hb]

theorem flag_bits (f : IoFlag) : f.bits < 4 ∧ IoFlag.ofBits f.bits = f := by cases f <;> decide

theorem test_bits (t : SkipTest) : t.bits < 4 ∧ SkipTest.ofBits t.bits = t := by cases t <;> decide

namespace RoundTrip

/-- In the mode that selects it, a well-formed instruction is what the decoder reads from its own words. -/
def Statement (i : Instr) : Prop :=
  i.wf = true → ∀ lef, i.selectedIn lef = true →
    decodeWords lef ((encode i).getD 0 0) ((encode i).getD 1 0) = some i

/-- The last step for an instruction with an extended address field. -/
theorem ext_close {lef : Bool} {w1 : Word} (mk : ExtAddr → Instr) (ea : ExtAddr)
    (h : ∀ w2 : Word, decodeWords lef w1 w2 =
      some (mk ⟨decide (field w2 15 1 = 1), ea.idx, BitVec.ofNat 15 (field w2 0 15)⟩)) :
    decodeWords lef w1 ea.word2 = some (mk ea) := by
  rw [h, ExtAddr.word2, flagWord_flag, flagWord_addr]

theorem jmp (ea : ShortAddr) : Statement (.jmp ea) := by
  intro _ lef _
  have hb := shortAddr_bits ea
  have hn : 2048 * 0 + ea.bits < 65536 := by omega
  have e1 : field (word (2048 * 0 + ea.bits)) 13 3 = 0 := by rw [field_word hn]; omega
  have e2 : field (word (2048 * 0 + ea.bits)) 11 2 = 0 := by rw [field_word hn]; omega
  show decodeWords lef (word (0 + ea.bits)) 0 = _
  rw [show 0 + ea.bits = 2048 * 0 + ea.bits from rfl]
  simp only [decodeWords, decodeJump, e1, e2, shortAddr_ofWord 0 ea (by decide)]

theorem jsr (ea : ShortAddr) : Statement (.jsr ea) := by
  intro _ lef _
  have hb := shortAddr_bits ea
  have hn : 2048 * 1 + ea.bits < 65536 := by omega
  have e1 : field (word (2048 * 1 + ea.bits)) 13 3 = 0 := by rw [field_word hn]; omega
  have e2 : field (word (2048 * 1 + ea.bits)) 11 2 = 1 := by rw [field_word hn]; omega
  show decodeWords lef (word (2048 + ea.bits)) 0 = _
  rw [show 2048 + ea.bits = 2048 * 1 + ea.bits from rfl]
  simp only [decodeWords, decodeJump, e1, e2, shortAddr_ofWord 1 ea (by decide)]

theorem isz (ea : ShortAddr) : Statement (.isz ea) := by
  intro _ lef _
  have hb := shortAddr_bits ea
  have hn : 2048 * 2 + ea.bits < 65536 := by omega
  have e1 : field (word (2048 * 2 + ea.bits)) 13 3 = 0 := by rw [field_word hn]; omega
  have e2 : field (word (2048 * 2 + ea.bits)) 11 2 = 2 := by rw [field_word hn]; omega
  show decodeWords lef (word (4096 + ea.bits)) 0 = _
  rw [show 4096 + ea.bits = 2048 * 2 + ea.bits from rfl]
  simp only [decodeWords, decodeJump, e1, e2, shortAddr_ofWord 2 ea (by decide)]

theorem dsz (ea : ShortAddr) : Statement (.dsz ea) := by
  intro _ lef _
  have hb := shortAddr_bits ea
  have hn : 2048 * 3 + ea.bits < 65536 := by omega
  have e1 : field (word (2048 * 3 + ea.bits)) 13 3 = 0 := by rw [field_word hn]; omega
  have e2 : field (word (2048 * 3 + ea.bits)) 11 2 = 3 := by rw [field_word hn]; omega
  show decodeWords lef (word (6144 + ea.bits)) 0 = _
  rw [show 6144 + ea.bits = 2048 * 3 + ea.bits from rfl]
  simp only [decodeWords, decodeJump, e1, e2, shortAddr_ofWord 3 ea (by decide)]

theorem lda (ac : AcNo) (ea : ShortAddr) : Statement (.lda ac ea) := by
  intro _ lef _
  have hb := shortAddr_bits ea
  have ha := ac.isLt
  have hn : 2048 * (4 + ac.toNat) + ea.bits < 65536 := by omega
  have e1 : field (word (2048 * (4 + ac.toNat) + ea.bits)) 13 3 = 1 := by rw [field_word hn]; omega
  have e2 : acAt (word (2048 * (4 + ac.toNat) + ea.bits)) 11 = ac := by
    rw [acAt, field_word hn]
    apply BitVec.eq_of_toNat_eq
    simp only [BitVec.toNat_ofNat]
    omega
  show decodeWords lef (word (8192 + ac.toNat * 2048 + ea.bits)) 0 = _
  rw [show 8192 + ac.toNat * 2048 + ea.bits = 2048 * (4 + ac.toNat) + ea.bits by omega]
  simp only [decodeWords, e1, e2, shortAddr_ofWord (4 + ac.toNat) ea (by omega)]

theorem sta (ac : AcNo) (ea : ShortAddr) : Statement (.sta ac ea) := by
  intro _ lef _
  have hb := shortAddr_bits ea
  have ha := ac.isLt
  have hn : 2048 * (8 + ac.toNat) + ea.bits < 65536 := by omega
  have e1 : field (word (2048 * (8 + ac.toNat) + ea.bits)) 13 3 = 2 := by rw [field_word hn]; omega
  have e2 : acAt (word (2048 * (8 + ac.toNat) + ea.bits)) 11 = ac := by
    rw [acAt, field_word hn]
    apply BitVec.eq_of_toNat_eq
    simp only [BitVec.toNat_ofNat]
    omega
  show decodeWords lef (word (16384 + ac.toNat * 2048 + ea.bits)) 0 = _
  rw [show 16384 + ac.toNat * 2048 + ea.bits = 2048 * (8 + ac.toNat) + ea.bits by omega]
  simp only [decodeWords, e1, e2, shortAddr_ofWord (8 + ac.toNat) ea (by omega)]

theorem lef (ac : AcNo) (ea : ShortAddr) : Statement (.lef ac ea) := by
  intro _ lef hl
  have hb := shortAddr_bits ea
  have ha := ac.isLt
  have hn : 2048 * (12 + ac.toNat) + ea.bits < 65536 := by omega
  have e1 : field (word (2048 * (12 + ac.toNat) + ea.bits)) 13 3 = 3 := by rw [field_word hn]; omega
  have e2 : acAt (word (2048 * (12 + ac.toNat) + ea.bits)) 11 = ac := by
    rw [acAt, field_word hn]
    apply BitVec.eq_of_toNat_eq
    simp only [BitVec.toNat_ofNat]
    omega
  show decodeWords lef (word (24576 + ac.toNat * 2048 + ea.bits)) 0 = _
  rw [show 24576 + ac.toNat * 2048 + ea.bits = 2048 * (12 + ac.toNat) + ea.bits by omega]
  simp only [decodeWords, e1, e2, shortAddr_ofWord (12 + ac.toNat) ea (by omega), (show lef = true from hl)]
  rfl

theorem com (o : AlcOps) : Statement (.com o) := by
  intro hw lef _
  have h := decodeWords_alc lef 0 o 0 (by decide) hw
  refine h.1.trans ?_
  unfold decodeAlc
  rw [h.2, alcOps_ofWord 0 o (by decide)]
  rfl

theorem neg (o : AlcOps) : Statement (.neg o) := by
  intro hw lef _
  have h := decodeWords_alc lef 1 o 0 (by decide) hw
  refine h.1.trans ?_
  unfold decodeAlc
  rw [h.2, alcOps_ofWord 1 o (by decide)]
  rfl

theorem mov (o : AlcOps) : Statement (.mov o) := by
  intro hw lef _
  have h := decodeWords_alc lef 2 o 0 (by decide) hw
  refine h.1.trans ?_
  unfold decodeAlc
  rw [h.2, alcOps_ofWord 2 o (by decide)]
  rfl

theorem inc (o : AlcOps) : Statement (.inc o) := by
  intro hw lef _
  have h := decodeWords_alc lef 3 o 0 (by decide) hw
  refine h.1.trans ?_
  unfold decodeAlc
  rw [h.2, alcOps_ofWord 3 o (by decide)]
  rfl

theorem adc (o : AlcOps) : Statement (.adc o) := by
  intro hw lef _
  have h := decodeWords_alc lef 4 o 0 (by decide) hw
  refine h.1.trans ?_
  unfold decodeAlc
  rw [h.2, alcOps_ofWord 4 o (by decide)]
  rfl

theorem sub (o : AlcOps) : Statement (.sub o) := by
  intro hw lef _
  have h := decodeWords_alc lef 5 o 0 (by decide) hw
  refine h.1.trans ?_
  unfold decodeAlc
  rw [h.2, alcOps_ofWord 5 o (by decide)]
  rfl

theorem add (o : AlcOps) : Statement (.add o) := by
  intro hw lef _
  have h := decodeWords_alc lef 6 o 0 (by decide) hw
  refine h.1.trans ?_
  unfold decodeAlc
  rw [h.2, alcOps_ofWord 6 o (by decide)]
  rfl

theorem and (o : AlcOps) : Statement (.and o) := by
  intro hw lef _
  have h := decodeWords_alc lef 7 o 0 (by decide) hw
  refine h.1.trans ?_
  unfold decodeAlc
  rw [h.2, alcOps_ofWord 7 o (by decide)]
  rfl

theorem adi (n : BitVec 2) (ac : AcNo) : Statement (.adi n ac) := by
  unfold Statement
  revert n ac
  decide +kernel

theorem sbi (n : BitVec 2) (ac : AcNo) : Statement (.sbi n ac) := by
  unfold Statement
  revert n ac
  decide +kernel

theorem dad (acs : AcNo) (acd : AcNo) : Statement (.dad acs acd) := by
  unfold Statement
  revert acs acd
  decide +kernel

theorem dsb (acs : AcNo) (acd : AcNo) : Statement (.dsb acs acd) := by
  unfold Statement
  revert acs acd
  decide +kernel

theorem ior (acs : AcNo) (acd : AcNo) : Statement (.ior acs acd) := by
  unfold Statement
  revert acs acd
  decide +kernel

theorem xor (acs : AcNo) (acd : AcNo) : Statement (.xor acs acd) := by
  unfold Statement
  revert acs acd
  decide +kernel

theorem anc (acs : AcNo) (acd : AcNo) : Statement (.anc acs acd) := by
  unfold Statement
  revert acs acd
  decide +kernel

theorem xch (acs : AcNo) (acd : AcNo) : Statement (.xch acs acd) := by
  unfold Statement
  revert acs acd
  decide +kernel

theorem sgt (acs : AcNo) (acd : AcNo) : Statement (.sgt acs acd) := by
  unfold Statement
  revert acs acd
  decide +kernel

theorem sge (acs : AcNo) (acd : AcNo) : Statement (.sge acs acd) := by
  unfold Statement
  revert acs acd
  decide +kernel

theorem lsh (acs : AcNo) (acd : AcNo) : Statement (.lsh acs acd) := by
  unfold Statement
  revert acs acd
  decide +kernel

theorem dlsh (acs : AcNo) (acd : AcNo) : Statement (.dlsh acs acd) := by
  unfold Statement
  revert acs acd
  decide +kernel

theorem hxl (n : BitVec 2) (ac : AcNo) : Statement (.hxl n ac) := by
  unfold Statement
  revert n ac
  decide +kernel

theorem hxr (n : BitVec 2) (ac : AcNo) : Statement (.hxr n ac) := by
  unfold Statement
  revert n ac
  decide +kernel

theorem dhxl (n : BitVec 2) (ac : AcNo) : Statement (.dhxl n ac) := by
  unfold Statement
  revert n ac
  decide +kernel

theorem dhxr (n : BitVec 2) (ac : AcNo) : Statement (.dhxr n ac) := by
  unfold Statement
  revert n ac
  decide +kernel

theorem bto (acs : AcNo) (acd : AcNo) : Statement (.bto acs acd) := by
  unfold Statement
  revert acs acd
  decide +kernel

theorem btz (acs : AcNo) (acd : AcNo) : Statement (.btz acs acd) := by
  unfold Statement
  revert acs acd
  decide +kernel

theorem szb (acs : AcNo) (acd : AcNo) : Statement (.szb acs acd) := by
  unfold Statement
  revert acs acd
  decide +kernel

theorem szbo (acs : AcNo) (acd : AcNo) : Statement (.szbo acs acd) := by
  unfold Statement
  revert acs acd
  decide +kernel

theorem lob (acs : AcNo) (acd : AcNo) : Statement (.lob acs acd) := by
  unfold Statement
  revert acs acd
  decide +kernel

theorem lrb (acs : AcNo) (acd : AcNo) : Statement (.lrb acs acd) := by
  unfold Statement
  revert acs acd
  decide +kernel

theorem cob (acs : AcNo) (acd : AcNo) : Statement (.cob acs acd) := by
  unfold Statement
  revert acs acd
  decide +kernel

theorem ldb (acs : AcNo) (acd : AcNo) : Statement (.ldb acs acd) := by
  unfold Statement
  revert acs acd
  decide +kernel

theorem stb (acs : AcNo) (acd : AcNo) : Statement (.stb acs acd) := by
  unfold Statement
  revert acs acd
  decide +kernel

theorem psh (acs : AcNo) (acd : AcNo) : Statement (.psh acs acd) := by
  unfold Statement
  revert acs acd
  decide +kernel

theorem pop (acs : AcNo) (acd : AcNo) : Statement (.pop acs acd) := by
  unfold Statement
  revert acs acd
  decide +kernel

theorem syc (acs : AcNo) (acd : AcNo) : Statement (.syc acs acd) := by
  unfold Statement
  revert acs acd
  decide +kernel

theorem lmp : Statement .lmp := by
  unfold Statement
  decide +kernel

theorem pshr : Statement .pshr := by
  unfold Statement
  decide +kernel

theorem popb : Statement .popb := by
  unfold Statement
  decide +kernel

theorem bam : Statement .bam := by
  unfold Statement
  decide +kernel

theorem popj : Statement .popj := by
  unfold Statement
  decide +kernel

theorem rtn : Statement .rtn := by
  unfold Statement
  decide +kernel

theorem blm : Statement .blm := by
  unfold Statement
  decide +kernel

theorem divx : Statement .divx := by
  unfold Statement
  decide +kernel

theorem mul : Statement .mul := by
  unfold Statement
  decide +kernel

theorem muls : Statement .muls := by
  unfold Statement
  decide +kernel

theorem div : Statement .div := by
  unfold Statement
  decide +kernel

theorem divs : Statement .divs := by
  unfold Statement
  decide +kernel

theorem save (i : Word) : Statement (.save i) := by
  intro _ lef _
  show decodeWords lef (word (0o163710)) _ = _
  generalize hw : word (0o163710) = w
  have h : (4 ≤ field w 13 3 ∧ field w 0 4 = 8) ∧ field w 4 2 = 0 ∧ field w 6 5 = 31 ∧ field w 11 4 = 12 := by
    subst hw
    clear * -
    decide +kernel
  refine (decodeWords_high h.1).trans ?_
  simp [decodeExt, decodeNoOperand, encode, h.2]

theorem rstr : Statement .rstr := by
  unfold Statement
  decide +kernel

theorem xop (acs : AcNo) (acd : AcNo) (op : BitVec 5) : Statement (.xop acs acd op) := by
  unfold Statement
  revert acs acd op
  decide +kernel

theorem xop1 (acs : AcNo) (acd : AcNo) (op : BitVec 4) : Statement (.xop1 acs acd op) := by
  unfold Statement
  revert acs acd op
  decide +kernel

theorem ejmp (ea : ExtAddr) : Statement (.ejmp ea) := by
  intro _ lef _
  refine ext_close (fun e => .ejmp e) ea fun w2 => ?_
  obtain ⟨ind, idx, disp⟩ := ea
  show decodeWords lef (word (0o102070 + idx.bits * 256)) _ = _
  generalize hw : word (0o102070 + idx.bits * 256) = w
  have h : (4 ≤ field w 13 3 ∧ field w 0 4 = 8) ∧ field w 4 2 = 3 ∧ field w 10 1 = 1 ∧ field w 6 2 = 0 ∧ field w 13 2 = 0 ∧ field w 11 2 = 0 ∧ Index.ofBits (field w 8 2) = idx := by
    subst hw
    clear * -
    cases idx <;> decide +kernel
  refine (decodeWords_high h.1).trans ?_
  simp [decodeExtRef, ExtAddr.ofWords, h.2]

theorem ejsr (ea : ExtAddr) : Statement (.ejsr ea) := by
  intro _ lef _
  refine ext_close (fun e => .ejsr e) ea fun w2 => ?_
  obtain ⟨ind, idx, disp⟩ := ea
  show decodeWords lef (word (0o106070 + idx.bits * 256)) _ = _
  generalize hw : word (0o106070 + idx.bits * 256) = w
  have h : (4 ≤ field w 13 3 ∧ field w 0 4 = 8) ∧ field w 4 2 = 3 ∧ field w 10 1 = 1 ∧ field w 6 2 = 0 ∧ field w 13 2 = 0 ∧ field w 11 2 = 1 ∧ Index.ofBits (field w 8 2) = idx := by
    subst hw
    clear * -
    cases idx <;> decide +kernel
  refine (decodeWords_high h.1).trans ?_
  simp [decodeExtRef, ExtAddr.ofWords, h.2]

theorem eisz (ea : ExtAddr) : Statement (.eisz ea) := by
  intro _ lef _
  refine ext_close (fun e => .eisz e) ea fun w2 => ?_
  obtain ⟨ind, idx, disp⟩ := ea
  show decodeWords lef (word (0o112070 + idx.bits * 256)) _ = _
  generalize hw : word (0o112070 + idx.bits * 256) = w
  have h : (4 ≤ field w 13 3 ∧ field w 0 4 = 8) ∧ field w 4 2 = 3 ∧ field w 10 1 = 1 ∧ field w 6 2 = 0 ∧ field w 13 2 = 0 ∧ field w 11 2 = 2 ∧ Index.ofBits (field w 8 2) = idx := by
    subst hw
    clear * -
    cases idx <;> decide +kernel
  refine (decodeWords_high h.1).trans ?_
  simp [decodeExtRef, ExtAddr.ofWords, h.2]

theorem edsz (ea : ExtAddr) : Statement (.edsz ea) := by
  intro _ lef _
  refine ext_close (fun e => .edsz e) ea fun w2 => ?_
  obtain ⟨ind, idx, disp⟩ := ea
  show decodeWords lef (word (0o116070 + idx.bits * 256)) _ = _
  generalize hw : word (0o116070 + idx.bits * 256) = w
  have h : (4 ≤ field w 13 3 ∧ field w 0 4 = 8) ∧ field w 4 2 = 3 ∧ field w 10 1 = 1 ∧ field w 6 2 = 0 ∧ field w 13 2 = 0 ∧ field w 11 2 = 3 ∧ Index.ofBits (field w 8 2) = idx := by
    subst hw
    clear * -
    cases idx <;> decide +kernel
  refine (decodeWords_high h.1).trans ?_
  simp [decodeExtRef, ExtAddr.ofWords, h.2]

theorem pshj (ea : ExtAddr) : Statement (.pshj ea) := by
  intro _ lef _
  refine ext_close (fun e => .pshj e) ea fun w2 => ?_
  obtain ⟨ind, idx, disp⟩ := ea
  show decodeWords lef (word (0o102270 + idx.bits * 256)) _ = _
  generalize hw : word (0o102270 + idx.bits * 256) = w
  have h : (4 ≤ field w 13 3 ∧ field w 0 4 = 8) ∧ field w 4 2 = 3 ∧ field w 10 1 = 1 ∧ field w 6 2 = 2 ∧ field w 11 4 = 0 ∧ Index.ofBits (field w 8 2) = idx := by
    subst hw
    clear * -
    cases idx <;> decide +kernel
  refine (decodeWords_high h.1).trans ?_
  simp [decodeExtRef, ExtAddr.ofWords, h.2]

theorem elda (ac : AcNo) (ea : ExtAddr) : Statement (.elda ac ea) := by
  intro _ lef _
  refine ext_close (fun e => .elda ac e) ea fun w2 => ?_
  obtain ⟨ind, idx, disp⟩ := ea
  show decodeWords lef (word (0o122070 + ac.toNat * 2048 + idx.bits * 256)) _ = _
  generalize hw : word (0o122070 + ac.toNat * 2048 + idx.bits * 256) = w
  have h : (4 ≤ field w 13 3 ∧ field w 0 4 = 8) ∧ field w 4 2 = 3 ∧ field w 10 1 = 1 ∧ field w 6 2 = 0 ∧ field w 13 2 = 1 ∧ acAt w 11 = ac ∧ Index.ofBits (field w 8 2) = idx := by
    subst hw
    clear * -
    cases idx <;> revert ac <;> decide +kernel
  refine (decodeWords_high h.1).trans ?_
  simp [decodeExtRef, ExtAddr.ofWords, h.2]

theorem esta (ac : AcNo) (ea : ExtAddr) : Statement (.esta ac ea) := by
  intro _ lef _
  refine ext_close (fun e => .esta ac e) ea fun w2 => ?_
  obtain ⟨ind, idx, disp⟩ := ea
  show decodeWords lef (word (0o142070 + ac.toNat * 2048 + idx.bits * 256)) _ = _
  generalize hw : word (0o142070 + ac.toNat * 2048 + idx.bits * 256) = w
  have h : (4 ≤ field w 13 3 ∧ field w 0 4 = 8) ∧ field w 4 2 = 3 ∧ field w 10 1 = 1 ∧ field w 6 2 = 0 ∧ field w 13 2 = 2 ∧ acAt w 11 = ac ∧ Index.ofBits (field w 8 2) = idx := by
    subst hw
    clear * -
    cases idx <;> revert ac <;> decide +kernel
  refine (decodeWords_high h.1).trans ?_
  simp [decodeExtRef, ExtAddr.ofWords, h.2]

theorem elef (ac : AcNo) (ea : ExtAddr) : Statement (.elef ac ea) := by
  intro _ lef _
  refine ext_close (fun e => .elef ac e) ea fun w2 => ?_
  obtain ⟨ind, idx, disp⟩ := ea
  show decodeWords lef (word (0o162070 + ac.toNat * 2048 + idx.bits * 256)) _ = _
  generalize hw : word (0o162070 + ac.toNat * 2048 + idx.bits * 256) = w
  have h : (4 ≤ field w 13 3 ∧ field w 0 4 = 8) ∧ field w 4 2 = 3 ∧ field w 10 1 = 1 ∧ field w 6 2 = 0 ∧ field w 13 2 = 3 ∧ acAt w 11 = ac ∧ Index.ofBits (field w 8 2) = idx := by
    subst hw
    clear * -
    cases idx <;> revert ac <;> decide +kernel
  refine (decodeWords_high h.1).trans ?_
  simp [decodeExtRef, ExtAddr.ofWords, h.2]

theorem eldb (ac : AcNo) (idx : Index) (disp : Word) : Statement (.eldb ac idx disp) := by
  intro _ lef _
  show decodeWords lef (word (0o102170 + ac.toNat * 2048 + idx.bits * 256)) _ = _
  generalize hw : word (0o102170 + ac.toNat * 2048 + idx.bits * 256) = w
  have h : (4 ≤ field w 13 3 ∧ field w 0 4 = 8) ∧ field w 4 2 = 3 ∧ field w 10 1 = 1 ∧ field w 6 2 = 1 ∧ field w 13 2 = 0 ∧ acAt w 11 = ac ∧ Index.ofBits (field w 8 2) = idx := by
    subst hw
    clear * -
    cases idx <;> revert ac <;> decide +kernel
  refine (decodeWords_high h.1).trans ?_
  simp [decodeExtRef, encode, h.2]

theorem estb (ac : AcNo) (idx : Index) (disp : Word) : Statement (.estb ac idx disp) := by
  intro _ lef _
  show decodeWords lef (word (0o122170 + ac.toNat * 2048 + idx.bits * 256)) _ = _
  generalize hw : word (0o122170 + ac.toNat * 2048 + idx.bits * 256) = w
  have h : (4 ≤ field w 13 3 ∧ field w 0 4 = 8) ∧ field w 4 2 = 3 ∧ field w 10 1 = 1 ∧ field w 6 2 = 1 ∧ field w 13 2 = 1 ∧ acAt w 11 = ac ∧ Index.ofBits (field w 8 2) = idx := by
    subst hw
    clear * -
    cases idx <;> revert ac <;> decide +kernel
  refine (decodeWords_high h.1).trans ?_
  simp [decodeExtRef, encode, h.2]

theorem dspa (ac : AcNo) (ea : ExtAddr) : Statement (.dspa ac ea) := by
  intro _ lef _
  refine ext_close (fun e => .dspa ac e) ea fun w2 => ?_
  obtain ⟨ind, idx, disp⟩ := ea
  show decodeWords lef (word (0o142170 + ac.toNat * 2048 + idx.bits * 256)) _ = _
  generalize hw : word (0o142170 + ac.toNat * 2048 + idx.bits * 256) = w
  have h : (4 ≤ field w 13 3 ∧ field w 0 4 = 8) ∧ field w 4 2 = 3 ∧ field w 10 1 = 1 ∧ field w 6 2 = 1 ∧ field w 13 2 = 2 ∧ acAt w 11 = ac ∧ Index.ofBits (field w 8 2) = idx := by
    subst hw
    clear * -
    cases idx <;> revert ac <;> decide +kernel
  refine (decodeWords_high h.1).trans ?_
  simp [decodeExtRef, ExtAddr.ofWords, h.2]

theorem clm (acs : AcNo) (acd : AcNo) : Statement (.clm acs acd) := by
  unfold Statement
  revert acs acd
  decide +kernel

theorem snb (acs : AcNo) (acd : AcNo) : Statement (.snb acs acd) := by
  unfold Statement
  revert acs acd
  decide +kernel

theorem msp (ac : AcNo) : Statement (.msp ac) := by
  unfold Statement
  revert ac
  decide +kernel

theorem xct (ac : AcNo) : Statement (.xct ac) := by
  unfold Statement
  revert ac
  decide +kernel

theorem hlv (ac : AcNo) : Statement (.hlv ac) := by
  unfold Statement
  revert ac
  decide +kernel

theorem iori (ac : AcNo) (i : Word) : Statement (.iori ac i) := by
  intro _ lef _
  show decodeWords lef (word (0o103770 + ac.toNat * 2048)) _ = _
  generalize hw : word (0o103770 + ac.toNat * 2048) = w
  have h : (4 ≤ field w 13 3 ∧ field w 0 4 = 8) ∧ field w 4 2 = 3 ∧ field w 10 1 = 1 ∧ field w 6 2 = 3 ∧ field w 8 2 = 3 ∧ field w 13 2 = 0 ∧ acAt w 11 = ac := by
    subst hw
    clear * -
    revert ac
    decide +kernel
  refine (decodeWords_high h.1).trans ?_
  simp [decodeExtRef, decodeGroup3, encode, h.2]

theorem xori (ac : AcNo) (i : Word) : Statement (.xori ac i) := by
  intro _ lef _
  show decodeWords lef (word (0o123770 + ac.toNat * 2048)) _ = _
  generalize hw : word (0o123770 + ac.toNat * 2048) = w
  have h : (4 ≤ field w 13 3 ∧ field w 0 4 = 8) ∧ field w 4 2 = 3 ∧ field w 10 1 = 1 ∧ field w 6 2 = 3 ∧ field w 8 2 = 3 ∧ field w 13 2 = 1 ∧ acAt w 11 = ac := by
    subst hw
    clear * -
    revert ac
    decide +kernel
  refine (decodeWords_high h.1).trans ?_
  simp [decodeExtRef, decodeGroup3, encode, h.2]

theorem andi (ac : AcNo) (i : Word) : Statement (.andi ac i) := by
  intro _ lef _
  show decodeWords lef (word (0o143770 + ac.toNat * 2048)) _ = _
  generalize hw : word (0o143770 + ac.toNat * 2048) = w
  have h : (4 ≤ field w 13 3 ∧ field w 0 4 = 8) ∧ field w 4 2 = 3 ∧ field w 10 1 = 1 ∧ field w 6 2 = 3 ∧ field w 8 2 = 3 ∧ field w 13 2 = 2 ∧ acAt w 11 = ac := by
    subst hw
    clear * -
    revert ac
    decide +kernel
  refine (decodeWords_high h.1).trans ?_
  simp [decodeExtRef, decodeGroup3, encode, h.2]

theorem addi (ac : AcNo) (i : Word) : Statement (.addi ac i) := by
  intro _ lef _
  show decodeWords lef (word (0o163770 + ac.toNat * 2048)) _ = _
  generalize hw : word (0o163770 + ac.toNat * 2048) = w
  have h : (4 ≤ field w 13 3 ∧ field w 0 4 = 8) ∧ field w 4 2 = 3 ∧ field w 10 1 = 1 ∧ field w 6 2 = 3 ∧ field w 8 2 = 3 ∧ field w 13 2 = 3 ∧ acAt w 11 = ac := by
    subst hw
    clear * -
    revert ac
    decide +kernel
  refine (decodeWords_high h.1).trans ?_
  simp [decodeExtRef, decodeGroup3, encode, h.2]

theorem fas (facs : AcNo) (facd : AcNo) : Statement (.fas facs facd) := by
  unfold Statement
  revert facs facd
  decide +kernel

theorem fad (facs : AcNo) (facd : AcNo) : Statement (.fad facs facd) := by
  unfold Statement
  revert facs facd
  decide +kernel

theorem fss (facs : AcNo) (facd : AcNo) : Statement (.fss facs facd) := by
  unfold Statement
  revert facs facd
  decide +kernel

theorem fsd (facs : AcNo) (facd : AcNo) : Statement (.fsd facs facd) := by
  unfold Statement
  revert facs facd
  decide +kernel

theorem fms (facs : AcNo) (facd : AcNo) : Statement (.fms facs facd) := by
  unfold Statement
  revert facs facd
  decide +kernel

theorem fmd (facs : AcNo) (facd : AcNo) : Statement (.fmd facs facd) := by
  unfold Statement
  revert facs facd
  decide +kernel

theorem fds (facs : AcNo) (facd : AcNo) : Statement (.fds facs facd) := by
  unfold Statement
  revert facs facd
  decide +kernel

theorem fdd (facs : AcNo) (facd : AcNo) : Statement (.fdd facs facd) := by
  unfold Statement
  revert facs facd
  decide +kernel

theorem fams (fac : AcNo) (ea : ExtAddr) : Statement (.fams fac ea) := by
  intro _ lef _
  refine ext_close (fun e => .fams fac e) ea fun w2 => ?_
  obtain ⟨ind, idx, disp⟩ := ea
  show decodeWords lef (word (0o101050 + fac.toNat * 2048 + idx.bits * 8192)) _ = _
  generalize hw : word (0o101050 + fac.toNat * 2048 + idx.bits * 8192) = w
  have h : (4 ≤ field w 13 3 ∧ field w 0 4 = 8) ∧ field w 4 2 = 2 ∧ field w 6 5 = 8 ∧ acAt w 11 = fac ∧ Index.ofBits (field w 13 2) = idx := by
    subst hw
    clear * -
    cases idx <;> revert fac <;> decide +kernel
  refine (decodeWords_high h.1).trans ?_
  simp [decodeFloat, ExtAddr.ofWords, h.2]

theorem famd (fac : AcNo) (ea : ExtAddr) : Statement (.famd fac ea) := by
  intro _ lef _
  refine ext_close (fun e => .famd fac e) ea fun w2 => ?_
  obtain ⟨ind, idx, disp⟩ := ea
  show decodeWords lef (word (0o101150 + fac.toNat * 2048 + idx.bits * 8192)) _ = _
  generalize hw : word (0o101150 + fac.toNat * 2048 + idx.bits * 8192) = w
  have h : (4 ≤ field w 13 3 ∧ field w 0 4 = 8) ∧ field w 4 2 = 2 ∧ field w 6 5 = 9 ∧ acAt w 11 = fac ∧ Index.ofBits (field w 13 2) = idx := by
    subst hw
    clear * -
    cases idx <;> revert fac <;> decide +kernel
  refine (decodeWords_high h.1).trans ?_
  simp [decodeFloat, ExtAddr.ofWords, h.2]

theorem fsms (fac : AcNo) (ea : ExtAddr) : Statement (.fsms fac ea) := by
  intro _ lef _
  refine ext_close (fun e => .fsms fac e) ea fun w2 => ?_
  obtain ⟨ind, idx, disp⟩ := ea
  show decodeWords lef (word (0o101250 + fac.toNat * 2048 + idx.bits * 8192)) _ = _
  generalize hw : word (0o101250 + fac.toNat * 2048 + idx.bits * 8192) = w
  have h : (4 ≤ field w 13 3 ∧ field w 0 4 = 8) ∧ field w 4 2 = 2 ∧ field w 6 5 = 10 ∧ acAt w 11 = fac ∧ Index.ofBits (field w 13 2) = idx := by
    subst hw
    clear * -
    cases idx <;> revert fac <;> decide +kernel
  refine (decodeWords_high h.1).trans ?_
  simp [decodeFloat, ExtAddr.ofWords, h.2]

theorem fsmd (fac : AcNo) (ea : ExtAddr) : Statement (.fsmd fac ea) := by
  intro _ lef _
  refine ext_close (fun e => .fsmd fac e) ea fun w2 => ?_
  obtain ⟨ind, idx, disp⟩ := ea
  show decodeWords lef (word (0o101350 + fac.toNat * 2048 + idx.bits * 8192)) _ = _
  generalize hw : word (0o101350 + fac.toNat * 2048 + idx.bits * 8192) = w
  have h : (4 ≤ field w 13 3 ∧ field w 0 4 = 8) ∧ field w 4 2 = 2 ∧ field w 6 5 = 11 ∧ acAt w 11 = fac ∧ Index.ofBits (field w 13 2) = idx := by
    subst hw
    clear * -
    cases idx <;> revert fac <;> decide +kernel
  refine (decodeWords_high h.1).trans ?_
  simp [decodeFloat, ExtAddr.ofWords, h.2]

theorem fmms (fac : AcNo) (ea : ExtAddr) : Statement (.fmms fac ea) := by
  intro _ lef _
  refine ext_close (fun e => .fmms fac e) ea fun w2 => ?_
  obtain ⟨ind, idx, disp⟩ := ea
  show decodeWords lef (word (0o101450 + fac.toNat * 2048 + idx.bits * 8192)) _ = _
  generalize hw : word (0o101450 + fac.toNat * 2048 + idx.bits * 8192) = w
  have h : (4 ≤ field w 13 3 ∧ field w 0 4 = 8) ∧ field w 4 2 = 2 ∧ field w 6 5 = 12 ∧ acAt w 11 = fac ∧ Index.ofBits (field w 13 2) = idx := by
    subst hw
    clear * -
    cases idx <;> revert fac <;> decide +kernel
  refine (decodeWords_high h.1).trans ?_
  simp [decodeFloat, ExtAddr.ofWords, h.2]

theorem fmmd (fac : AcNo) (ea : ExtAddr) : Statement (.fmmd fac ea) := by
  intro _ lef _
  refine ext_close (fun e => .fmmd fac e) ea fun w2 => ?_
  obtain ⟨ind, idx, disp⟩ := ea
  show decodeWords lef (word (0o101550 + fac.toNat * 2048 + idx.bits * 8192)) _ = _
  generalize hw : word (0o101550 + fac.toNat * 2048 + idx.bits * 8192) = w
  have h : (4 ≤ field w 13 3 ∧ field w 0 4 = 8) ∧ field w 4 2 = 2 ∧ field w 6 5 = 13 ∧ acAt w 11 = fac ∧ Index.ofBits (field w 13 2) = idx := by
    subst hw
    clear * -
    cases idx <;> revert fac <;> decide +kernel
  refine (decodeWords_high h.1).trans ?_
  simp [decodeFloat, ExtAddr.ofWords, h.2]

theorem fdms (fac : AcNo) (ea : ExtAddr) : Statement (.fdms fac ea) := by
  intro _ lef _
  refine ext_close (fun e => .fdms fac e) ea fun w2 => ?_
  obtain ⟨ind, idx, disp⟩ := ea
  show decodeWords lef (word (0o101650 + fac.toNat * 2048 + idx.bits * 8192)) _ = _
  generalize hw : word (0o101650 + fac.toNat * 2048 + idx.bits * 8192) = w
  have h : (4 ≤ field w 13 3 ∧ field w 0 4 = 8) ∧ field w 4 2 = 2 ∧ field w 6 5 = 14 ∧ acAt w 11 = fac ∧ Index.ofBits (field w 13 2) = idx := by
    subst hw
    clear * -
    cases idx <;> revert fac <;> decide +kernel
  refine (decodeWords_high h.1).trans ?_
  simp [decodeFloat, ExtAddr.ofWords, h.2]

theorem fdmd (fac : AcNo) (ea : ExtAddr) : Statement (.fdmd fac ea) := by
  intro _ lef _
  refine ext_close (fun e => .fdmd fac e) ea fun w2 => ?_
  obtain ⟨ind, idx, disp⟩ := ea
  show decodeWords lef (word (0o101750 + fac.toNat * 2048 + idx.bits * 8192)) _ = _
  generalize hw : word (0o101750 + fac.toNat * 2048 + idx.bits * 8192) = w
  have h : (4 ≤ field w 13 3 ∧ field w 0 4 = 8) ∧ field w 4 2 = 2 ∧ field w 6 5 = 15 ∧ acAt w 11 = fac ∧ Index.ofBits (field w 13 2) = idx := by
    subst hw
    clear * -
    cases idx <;> revert fac <;> decide +kernel
  refine (decodeWords_high h.1).trans ?_
  simp [decodeFloat, ExtAddr.ofWords, h.2]

theorem flds (fac : AcNo) (ea : ExtAddr) : Statement (.flds fac ea) := by
  intro _ lef _
  refine ext_close (fun e => .flds fac e) ea fun w2 => ?_
  obtain ⟨ind, idx, disp⟩ := ea
  show decodeWords lef (word (0o102050 + fac.toNat * 2048 + idx.bits * 8192)) _ = _
  generalize hw : word (0o102050 + fac.toNat * 2048 + idx.bits * 8192) = w
  have h : (4 ≤ field w 13 3 ∧ field w 0 4 = 8) ∧ field w 4 2 = 2 ∧ field w 6 5 = 16 ∧ acAt w 11 = fac ∧ Index.ofBits (field w 13 2) = idx := by
    subst hw
    clear * -
    cases idx <;> revert fac <;> decide +kernel
  refine (decodeWords_high h.1).trans ?_
  simp [decodeFloat, ExtAddr.ofWords, h.2]

theorem fldd (fac : AcNo) (ea : ExtAddr) : Statement (.fldd fac ea) := by
  intro _ lef _
  refine ext_close (fun e => .fldd fac e) ea fun w2 => ?_
  obtain ⟨ind, idx, disp⟩ := ea
  show decodeWords lef (word (0o102150 + fac.toNat * 2048 + idx.bits * 8192)) _ = _
  generalize hw : word (0o102150 + fac.toNat * 2048 + idx.bits * 8192) = w
  have h : (4 ≤ field w 13 3 ∧ field w 0 4 = 8) ∧ field w 4 2 = 2 ∧ field w 6 5 = 17 ∧ acAt w 11 = fac ∧ Index.ofBits (field w 13 2) = idx := by
    subst hw
    clear * -
    cases idx <;> revert fac <;> decide +kernel
  refine (decodeWords_high h.1).trans ?_
  simp [decodeFloat, ExtAddr.ofWords, h.2]

theorem fsts (fac : AcNo) (ea : ExtAddr) : Statement (.fsts fac ea) := by
  intro _ lef _
  refine ext_close (fun e => .fsts fac e) ea fun w2 => ?_
  obtain ⟨ind, idx, disp⟩ := ea
  show decodeWords lef (word (0o102250 + fac.toNat * 2048 + idx.bits * 8192)) _ = _
  generalize hw : word (0o102250 + fac.toNat * 2048 + idx.bits * 8192) = w
  have h : (4 ≤ field w 13 3 ∧ field w 0 4 = 8) ∧ field w 4 2 = 2 ∧ field w 6 5 = 18 ∧ acAt w 11 = fac ∧ Index.ofBits (field w 13 2) = idx := by
    subst hw
    clear * -
    cases idx <;> revert fac <;> decide +kernel
  refine (decodeWords_high h.1).trans ?_
  simp [decodeFloat, ExtAddr.ofWords, h.2]

theorem fstd (fac : AcNo) (ea : ExtAddr) : Statement (.fstd fac ea) := by
  intro _ lef _
  refine ext_close (fun e => .fstd fac e) ea fun w2 => ?_
  obtain ⟨ind, idx, disp⟩ := ea
  show decodeWords lef (word (0o102350 + fac.toNat * 2048 + idx.bits * 8192)) _ = _
  generalize hw : word (0o102350 + fac.toNat * 2048 + idx.bits * 8192) = w
  have h : (4 ≤ field w 13 3 ∧ field w 0 4 = 8) ∧ field w 4 2 = 2 ∧ field w 6 5 = 19 ∧ acAt w 11 = fac ∧ Index.ofBits (field w 13 2) = idx := by
    subst hw
    clear * -
    cases idx <;> revert fac <;> decide +kernel
  refine (decodeWords_high h.1).trans ?_
  simp [decodeFloat, ExtAddr.ofWords, h.2]

theorem flmd (fac : AcNo) (ea : ExtAddr) : Statement (.flmd fac ea) := by
  intro _ lef _
  refine ext_close (fun e => .flmd fac e) ea fun w2 => ?_
  obtain ⟨ind, idx, disp⟩ := ea
  show decodeWords lef (word (0o102550 + fac.toNat * 2048 + idx.bits * 8192)) _ = _
  generalize hw : word (0o102550 + fac.toNat * 2048 + idx.bits * 8192) = w
  have h : (4 ≤ field w 13 3 ∧ field w 0 4 = 8) ∧ field w 4 2 = 2 ∧ field w 6 5 = 21 ∧ acAt w 11 = fac ∧ Index.ofBits (field w 13 2) = idx := by
    subst hw
    clear * -
    cases idx <;> revert fac <;> decide +kernel
  refine (decodeWords_high h.1).trans ?_
  simp [decodeFloat, ExtAddr.ofWords, h.2]

theorem ffmd (fac : AcNo) (ea : ExtAddr) : Statement (.ffmd fac ea) := by
  intro _ lef _
  refine ext_close (fun e => .ffmd fac e) ea fun w2 => ?_
  obtain ⟨ind, idx, disp⟩ := ea
  show decodeWords lef (word (0o102750 + fac.toNat * 2048 + idx.bits * 8192)) _ = _
  generalize hw : word (0o102750 + fac.toNat * 2048 + idx.bits * 8192) = w
  have h : (4 ≤ field w 13 3 ∧ field w 0 4 = 8) ∧ field w 4 2 = 2 ∧ field w 6 5 = 23 ∧ acAt w 11 = fac ∧ Index.ofBits (field w 13 2) = idx := by
    subst hw
    clear * -
    cases idx <;> revert fac <;> decide +kernel
  refine (decodeWords_high h.1).trans ?_
  simp [decodeFloat, ExtAddr.ofWords, h.2]

theorem flas (ac : AcNo) (fac : AcNo) : Statement (.flas ac fac) := by
  unfold Statement
  revert ac fac
  decide +kernel

theorem ffas (ac : AcNo) (fac : AcNo) : Statement (.ffas ac fac) := by
  unfold Statement
  revert ac fac
  decide +kernel

theorem fnom (fac : AcNo) : Statement (.fnom fac) := by
  unfold Statement
  revert fac
  decide +kernel

theorem frh (fac : AcNo) : Statement (.frh fac) := by
  unfold Statement
  revert fac
  decide +kernel

theorem fab (fac : AcNo) : Statement (.fab fac) := by
  unfold Statement
  revert fac
  decide +kernel

theorem fneg (fac : AcNo) : Statement (.fneg fac) := by
  unfold Statement
  revert fac
  decide +kernel

theorem fscal (fac : AcNo) : Statement (.fscal fac) := by
  unfold Statement
  revert fac
  decide +kernel

theorem fexp (fac : AcNo) : Statement (.fexp fac) := by
  unfold Statement
  revert fac
  decide +kernel

theorem fint (fac : AcNo) : Statement (.fint fac) := by
  unfold Statement
  revert fac
  decide +kernel

theorem fhlv (fac : AcNo) : Statement (.fhlv fac) := by
  unfold Statement
  revert fac
  decide +kernel

theorem fns : Statement .fns := by
  unfold Statement
  decide +kernel

theorem fsa : Statement .fsa := by
  unfold Statement
  decide +kernel

theorem fseq : Statement .fseq := by
  unfold Statement
  decide +kernel

theorem fsne : Statement .fsne := by
  unfold Statement
  decide +kernel

theorem fslt : Statement .fslt := by
  unfold Statement
  decide +kernel

theorem fsge : Statement .fsge := by
  unfold Statement
  decide +kernel

theorem fsle : Statement .fsle := by
  unfold Statement
  decide +kernel

theorem fsgt : Statement .fsgt := by
  unfold Statement
  decide +kernel

theorem fsnm : Statement .fsnm := by
  unfold Statement
  decide +kernel

theorem fsnd : Statement .fsnd := by
  unfold Statement
  decide +kernel

theorem fsnu : Statement .fsnu := by
  unfold Statement
  decide +kernel

theorem fsnud : Statement .fsnud := by
  unfold Statement
  decide +kernel

theorem fsno : Statement .fsno := by
  unfold Statement
  decide +kernel

theorem fsnod : Statement .fsnod := by
  unfold Statement
  decide +kernel

theorem fsnuo : Statement .fsnuo := by
  unfold Statement
  decide +kernel

theorem fsner : Statement .fsner := by
  unfold Statement
  decide +kernel

theorem fsst (ea : ExtAddr) : Statement (.fsst ea) := by
  intro _ lef _
  refine ext_close (fun e => .fsst e) ea fun w2 => ?_
  obtain ⟨ind, idx, disp⟩ := ea
  show decodeWords lef (word (0o103350 + idx.bits * 2048)) _ = _
  generalize hw : word (0o103350 + idx.bits * 2048) = w
  have h : (4 ≤ field w 13 3 ∧ field w 0 4 = 8) ∧ field w 4 2 = 2 ∧ field w 6 5 = 27 ∧ field w 13 2 = 0 ∧ Index.ofBits (field w 11 2) = idx := by
    subst hw
    clear * -
    cases idx <;> decide +kernel
  refine (decodeWords_high h.1).trans ?_
  simp [decodeFloat, decodeFloatStatus, ExtAddr.ofWords, h.2]

theorem flst (ea : ExtAddr) : Statement (.flst ea) := by
  intro _ lef _
  refine ext_close (fun e => .flst e) ea fun w2 => ?_
  obtain ⟨ind, idx, disp⟩ := ea
  show decodeWords lef (word (0o123350 + idx.bits * 2048)) _ = _
  generalize hw : word (0o123350 + idx.bits * 2048) = w
  have h : (4 ≤ field w 13 3 ∧ field w 0 4 = 8) ∧ field w 4 2 = 2 ∧ field w 6 5 = 27 ∧ field w 13 2 = 1 ∧ Index.ofBits (field w 11 2) = idx := by
    subst hw
    clear * -
    cases idx <;> decide +kernel
  refine (decodeWords_high h.1).trans ?_
  simp [decodeFloat, decodeFloatStatus, ExtAddr.ofWords, h.2]

theorem fte : Statement .fte := by
  unfold Statement
  decide +kernel

theorem ftd : Statement .ftd := by
  unfold Statement
  decide +kernel

theorem fcle : Statement .fcle := by
  unfold Statement
  decide +kernel

theorem fpsh : Statement .fpsh := by
  unfold Statement
  decide +kernel

theorem fpop : Statement .fpop := by
  unfold Statement
  decide +kernel

theorem fcmp (facs : AcNo) (facd : AcNo) : Statement (.fcmp facs facd) := by
  unfold Statement
  revert facs facd
  decide +kernel

theorem fmov (facs : AcNo) (facd : AcNo) : Statement (.fmov facs facd) := by
  unfold Statement
  revert facs facd
  decide +kernel

theorem cmv : Statement .cmv := by
  unfold Statement
  decide +kernel

theorem cmp : Statement .cmp := by
  unfold Statement
  decide +kernel

theorem ctr : Statement .ctr := by
  unfold Statement
  decide +kernel

theorem cmt : Statement .cmt := by
  unfold Statement
  decide +kernel

theorem nio (ac : AcNo) (f : IoFlag) (dev : BitVec 6) : Statement (.nio ac f dev) := by
  intro hw lef hl
  obtain ⟨e1, e2, e3, e4, e5, e6⟩ := io_fields 0 f.bits ac dev (by decide) (flag_bits f).1
  have he : (encode (.nio ac f dev)).getD 0 0 = word (0o060000 + 0 * 256 + ac.toNat * 2048 + f.bits * 64 + dev.toNat) := by
    show word (0o060000 + ac.toNat * 2048 + f.bits * 64 + dev.toNat) = _
    congr 1
  have hl : lef = false := by
    cases lef with
    | false => rfl
    | true =>
      rw [show Instr.selectedIn true (.nio ac f dev) = (!true || decide (field ((encode (.nio ac f dev)).getD 0 0) 13 3 ≠ 3)) from rfl, he, e1] at hl
      exact absurd hl (by decide)
  subst hl
  have hw1 : Instr.genericDeviceNio dev = true := hw
  have hd : dev.toNat ≠ 0o77 ∧ dev.toNat ≠ 3 ∧ boardRow dev.toNat 0 = false := by
    revert hw1
    clear * -
    revert dev
    decide +kernel
  rw [he]
  refine (decodeWords_generic e1 (by rw [e5]; exact hd.1) (by rw [e5]; exact hd.2.1) (by rw [e6]; have := hd.1; have := ac.isLt; have := dev.isLt; have := (flag_bits f).1; omega) (by rw [e5, e2]; exact hd.2.2)).trans ?_
  simp only [decodeIoGeneric, acAt, e2, e3, e4, e5, (flag_bits f).2, BitVec.ofNat_toNat, BitVec.setWidth_eq]

theorem dia (ac : AcNo) (f : IoFlag) (dev : BitVec 6) : Statement (.dia ac f dev) := by
  intro hw lef hl
  obtain ⟨e1, e2, e3, e4, e5, e6⟩ := io_fields 1 f.bits ac dev (by decide) (flag_bits f).1
  have he : (encode (.dia ac f dev)).getD 0 0 = word (0o060000 + 1 * 256 + ac.toNat * 2048 + f.bits * 64 + dev.toNat) := by
    show word (0o060400 + ac.toNat * 2048 + f.bits * 64 + dev.toNat) = _
    simp
  have hl : lef = false := by
    cases lef with
    | false => rfl
    | true =>
      rw [show Instr.selectedIn true (.dia ac f dev) = (!true || decide (field ((encode (.dia ac f dev)).getD 0 0) 13 3 ≠ 3)) from rfl, he, e1] at hl
      exact absurd hl (by decide)
  subst hl
  have hw1 : Instr.genericDeviceDia dev = true := hw
  have hd : dev.toNat ≠ 0o77 ∧ dev.toNat ≠ 3 ∧ boardRow dev.toNat 1 = false := by
    revert hw1
    clear * -
    revert dev
    decide +kernel
  rw [he]
  refine (decodeWords_generic e1 (by rw [e5]; exact hd.1) (by rw [e5]; exact hd.2.1) (by rw [e6]; have := hd.1; have := ac.isLt; have := dev.isLt; have := (flag_bits f).1; omega) (by rw [e5, e2]; exact hd.2.2)).trans ?_
  simp only [decodeIoGeneric, acAt, e2, e3, e4, e5, (flag_bits f).2, BitVec.ofNat_toNat, BitVec.setWidth_eq]

theorem doa (ac : AcNo) (f : IoFlag) (dev : BitVec 6) : Statement (.doa ac f dev) := by
  intro hw lef hl
  obtain ⟨e1, e2, e3, e4, e5, e6⟩ := io_fields 2 f.bits ac dev (by decide) (flag_bits f).1
  have he : (encode (.doa ac f dev)).getD 0 0 = word (0o060000 + 2 * 256 + ac.toNat * 2048 + f.bits * 64 + dev.toNat) := by
    show word (0o061000 + ac.toNat * 2048 + f.bits * 64 + dev.toNat) = _
    simp
  have hl : lef = false := by
    cases lef with
    | false => rfl
    | true =>
      rw [show Instr.selectedIn true (.doa ac f dev) = (!true || decide (field ((encode (.doa ac f dev)).getD 0 0) 13 3 ≠ 3)) from rfl, he, e1] at hl
      exact absurd hl (by decide)
  subst hl
  have hw1 : Instr.genericDeviceDoa dev = true := hw
  have hd : dev.toNat ≠ 0o77 ∧ dev.toNat ≠ 3 ∧ boardRow dev.toNat 2 = false := by
    revert hw1
    clear * -
    revert dev
    decide +kernel
  rw [he]
  refine (decodeWords_generic e1 (by rw [e5]; exact hd.1) (by rw [e5]; exact hd.2.1) (by rw [e6]; have := hd.1; have := ac.isLt; have := dev.isLt; have := (flag_bits f).1; omega) (by rw [e5, e2]; exact hd.2.2)).trans ?_
  simp only [decodeIoGeneric, acAt, e2, e3, e4, e5, (flag_bits f).2, BitVec.ofNat_toNat, BitVec.setWidth_eq]

theorem dib (ac : AcNo) (f : IoFlag) (dev : BitVec 6) : Statement (.dib ac f dev) := by
  intro hw lef hl
  obtain ⟨e1, e2, e3, e4, e5, e6⟩ := io_fields 3 f.bits ac dev (by decide) (flag_bits f).1
  have he : (encode (.dib ac f dev)).getD 0 0 = word (0o060000 + 3 * 256 + ac.toNat * 2048 + f.bits * 64 + dev.toNat) := by
    show word (0o061400 + ac.toNat * 2048 + f.bits * 64 + dev.toNat) = _
    simp
  have hl : lef = false := by
    cases lef with
    | false => rfl
    | true =>
      rw [show Instr.selectedIn true (.dib ac f dev) = (!true || decide (field ((encode (.dib ac f dev)).getD 0 0) 13 3 ≠ 3)) from rfl, he, e1] at hl
      exact absurd hl (by decide)
  subst hl
  have hw1 : Instr.genericDeviceDib dev = true := hw
  have hd : dev.toNat ≠ 0o77 ∧ dev.toNat ≠ 3 ∧ boardRow dev.toNat 3 = false := by
    revert hw1
    clear * -
    revert dev
    decide +kernel
  rw [he]
  refine (decodeWords_generic e1 (by rw [e5]; exact hd.1) (by rw [e5]; exact hd.2.1) (by rw [e6]; have := hd.1; have := ac.isLt; have := dev.isLt; have := (flag_bits f).1; omega) (by rw [e5, e2]; exact hd.2.2)).trans ?_
  simp only [decodeIoGeneric, acAt, e2, e3, e4, e5, (flag_bits f).2, BitVec.ofNat_toNat, BitVec.setWidth_eq]

theorem dob (ac : AcNo) (f : IoFlag) (dev : BitVec 6) : Statement (.dob ac f dev) := by
  intro hw lef hl
  obtain ⟨e1, e2, e3, e4, e5, e6⟩ := io_fields 4 f.bits ac dev (by decide) (flag_bits f).1
  have he : (encode (.dob ac f dev)).getD 0 0 = word (0o060000 + 4 * 256 + ac.toNat * 2048 + f.bits * 64 + dev.toNat) := by
    show word (0o062000 + ac.toNat * 2048 + f.bits * 64 + dev.toNat) = _
    simp
  have hl : lef = false := by
    cases lef with
    | false => rfl
    | true =>
      rw [show Instr.selectedIn true (.dob ac f dev) = (!true || decide (field ((encode (.dob ac f dev)).getD 0 0) 13 3 ≠ 3)) from rfl, he, e1] at hl
      exact absurd hl (by decide)
  subst hl
  have hw1 : Instr.genericDeviceDob dev = true := hw
  have hd : dev.toNat ≠ 0o77 ∧ dev.toNat ≠ 3 ∧ boardRow dev.toNat 4 = false := by
    revert hw1
    clear * -
    revert dev
    decide +kernel
  rw [he]
  refine (decodeWords_generic e1 (by rw [e5]; exact hd.1) (by rw [e5]; exact hd.2.1) (by rw [e6]; have := hd.1; have := ac.isLt; have := dev.isLt; have := (flag_bits f).1; omega) (by rw [e5, e2]; exact hd.2.2)).trans ?_
  simp only [decodeIoGeneric, acAt, e2, e3, e4, e5, (flag_bits f).2, BitVec.ofNat_toNat, BitVec.setWidth_eq]

theorem dic (ac : AcNo) (f : IoFlag) (dev : BitVec 6) : Statement (.dic ac f dev) := by
  intro hw lef hl
  obtain ⟨e1, e2, e3, e4, e5, e6⟩ := io_fields 5 f.bits ac dev (by decide) (flag_bits f).1
  have he : (encode (.dic ac f dev)).getD 0 0 = word (0o060000 + 5 * 256 + ac.toNat * 2048 + f.bits * 64 + dev.toNat) := by
    show word (0o062400 + ac.toNat * 2048 + f.bits * 64 + dev.toNat) = _
    simp
  have hl : lef = false := by
    cases lef with
    | false => rfl
    | true =>
      rw [show Instr.selectedIn true (.dic ac f dev) = (!true || decide (field ((encode (.dic ac f dev)).getD 0 0) 13 3 ≠ 3)) from rfl, he, e1] at hl
      exact absurd hl (by decide)
  subst hl
  have hw1 : Instr.genericDeviceDic dev = true := hw
  have hd : dev.toNat ≠ 0o77 ∧ dev.toNat ≠ 3 ∧ boardRow dev.toNat 5 = false := by
    revert hw1
    clear * -
    revert dev
    decide +kernel
  rw [he]
  refine (decodeWords_generic e1 (by rw [e5]; exact hd.1) (by rw [e5]; exact hd.2.1) (by rw [e6]; have := hd.1; have := ac.isLt; have := dev.isLt; have := (flag_bits f).1; omega) (by rw [e5, e2]; exact hd.2.2)).trans ?_
  simp only [decodeIoGeneric, acAt, e2, e3, e4, e5, (flag_bits f).2, BitVec.ofNat_toNat, BitVec.setWidth_eq]

theorem doc (ac : AcNo) (f : IoFlag) (dev : BitVec 6) : Statement (.doc ac f dev) := by
  intro hw lef hl
  obtain ⟨e1, e2, e3, e4, e5, e6⟩ := io_fields 6 f.bits ac dev (by decide) (flag_bits f).1
  have he : (encode (.doc ac f dev)).getD 0 0 = word (0o060000 + 6 * 256 + ac.toNat * 2048 + f.bits * 64 + dev.toNat) := by
    show word (0o063000 + ac.toNat * 2048 + f.bits * 64 + dev.toNat) = _
    simp
  have hl : lef = false := by
    cases lef with
    | false => rfl
    | true =>
      rw [show Instr.selectedIn true (.doc ac f dev) = (!true || decide (field ((encode (.doc ac f dev)).getD 0 0) 13 3 ≠ 3)) from rfl, he, e1] at hl
      exact absurd hl (by decide)
  subst hl
  have hw1 : Instr.genericDeviceDoc dev = true := hw
  have hd : dev.toNat ≠ 0o77 ∧ dev.toNat ≠ 3 ∧ boardRow dev.toNat 6 = false := by
    revert hw1
    clear * -
    revert dev
    decide +kernel
  rw [he]
  refine (decodeWords_generic e1 (by rw [e5]; exact hd.1) (by rw [e5]; exact hd.2.1) (by rw [e6]; have := hd.1; have := ac.isLt; have := dev.isLt; have := (flag_bits f).1; omega) (by rw [e5, e2]; exact hd.2.2)).trans ?_
  simp only [decodeIoGeneric, acAt, e2, e3, e4, e5, (flag_bits f).2, BitVec.ofNat_toNat, BitVec.setWidth_eq]

theorem skp (t : SkipTest) (dev : BitVec 6) : Statement (.skp t dev) := by
  intro hw lef hl
  obtain ⟨e1, e2, e3, e4, e5, e6⟩ := io_fields 7 t.bits 0 dev (by decide) (test_bits t).1
  have he : (encode (.skp t dev)).getD 0 0 = word (0o060000 + 7 * 256 + (0 : AcNo).toNat * 2048 + t.bits * 64 + dev.toNat) := by
    show word (0o063400 + t.bits * 64 + dev.toNat) = _
    simp
  have hl : lef = false := by
    cases lef with
    | false => rfl
    | true =>
      rw [show Instr.selectedIn true (.skp t dev) = (!true || decide (field ((encode (.skp t dev)).getD 0 0) 13 3 ≠ 3)) from rfl, he, e1] at hl
      exact absurd hl (by decide)
  subst hl
  have hw1 : Instr.genericDeviceSkp dev = true := hw
  have hd : dev.toNat ≠ 0o77 ∧ boardRow dev.toNat 7 = false := by
    revert hw1
    clear * -
    revert dev
    decide +kernel
  rw [he]
  by_cases hm : dev = 3
  · subst hm
    cases t <;> decide +kernel
  have hm : dev.toNat ≠ 3 := fun h => hm (BitVec.eq_of_toNat_eq h)
  refine (decodeWords_generic e1 (by rw [e5]; exact hd.1) (by rw [e5]; exact hm) (by rw [e6]; have := hd.1; have := dev.isLt; have := (test_bits t).1; simp; omega) (by rw [e5, e2]; exact hd.2)).trans ?_
  simp only [decodeIoGeneric, acAt, e2, e3, e4, e5, (test_bits t).2, BitVec.ofNat_toNat, BitVec.setWidth_eq, if_pos (show (0 : AcNo).toNat = 0 from rfl)]

theorem dis (ac : AcNo) (f : IoFlag) (dev : BitVec 6) : Statement (.dis ac f dev) := by
  intro hw lef hl
  obtain ⟨e1, e2, e3, e4, e5, e6⟩ := io_fields 7 f.bits ac dev (by decide) (flag_bits f).1
  have he : (encode (.dis ac f dev)).getD 0 0 = word (0o060000 + 7 * 256 + ac.toNat * 2048 + f.bits * 64 + dev.toNat) := by
    show word (0o063400 + ac.toNat * 2048 + f.bits * 64 + dev.toNat) = _
    simp
  have hl : lef = false := by
    cases lef with
    | false => rfl
    | true =>
      rw [show Instr.selectedIn true (.dis ac f dev) = (!true || decide (field ((encode (.dis ac f dev)).getD 0 0) 13 3 ≠ 3)) from rfl, he, e1] at hl
      exact absurd hl (by decide)
  subst hl
  have hw0 : ac ≠ 0 := by
    rintro rfl
    exact absurd hw (by simp [Instr.wf, Instr.statusAc])
  have hw1 : Instr.genericDeviceNio dev = true := by
    revert hw
    simp [Instr.wf]
  have hd : dev.toNat ≠ 0o77 ∧ dev.toNat ≠ 3 ∧ boardRow dev.toNat 7 = false := by
    revert hw1
    clear * -
    revert dev
    decide +kernel
  rw [he]
  refine (decodeWords_generic e1 (by rw [e5]; exact hd.1) (by rw [e5]; exact hd.2.1) (by rw [e6]; have := hd.1; have := ac.isLt; have := dev.isLt; have := (flag_bits f).1; omega) (by rw [e5, e2]; exact hd.2.2)).trans ?_
  have h4 : ac.toNat ≠ 0 := fun h => hw0 (BitVec.eq_of_toNat_eq h)
  simp only [decodeIoGeneric, acAt, e2, e3, e4, e5, (flag_bits f).2, BitVec.ofNat_toNat, BitVec.setWidth_eq, h4, if_false]

theorem inten (ac : AcNo) : Statement (.inten ac) := by
  unfold Statement
  revert ac
  decide +kernel

theorem intds (ac : AcNo) : Statement (.intds ac) := by
  unfold Statement
  revert ac
  decide +kernel

theorem nioCpu (ac : AcNo) (f : IoFlag) : Statement (.nioCpu ac f) := by
  unfold Statement
  cases f <;> revert ac <;> decide +kernel

theorem reads (ac : AcNo) (f : IoFlag) : Statement (.reads ac f) := by
  unfold Statement
  cases f <;> revert ac <;> decide +kernel

theorem doaCpu (ac : AcNo) (f : IoFlag) : Statement (.doaCpu ac f) := by
  unfold Statement
  cases f <;> revert ac <;> decide +kernel

theorem doapCpu (ac : AcNo) : Statement (.doapCpu ac) := by
  unfold Statement
  revert ac
  decide +kernel

theorem inta (ac : AcNo) (f : IoFlag) : Statement (.inta ac f) := by
  unfold Statement
  cases f <;> revert ac <;> decide +kernel

theorem vct (stackChange : Bool) (table : Addr) : Statement (.vct stackChange table) := by
  intro _ lef hl
  have hl : lef = false := by
    cases lef with
    | false => rfl
    | true => exact absurd (show (!true || decide (field (word 0o061777) 13 3 ≠ 3)) = true from hl) (by decide +kernel)
  subst hl
  have key : ∀ w2 : Word, decodeWords false (word 0o061777) w2 =
      some (.vct (decide (field w2 15 1 = 1)) (BitVec.ofNat 15 (field w2 0 15))) := fun w2 => by
    have h3 : field (word 0o061777) 13 3 = 3 := by decide +kernel
    have hv : (word 0o061777).toNat = 0o061777 := by decide +kernel
    unfold decodeWords
    rw [h3]
    simp only [Bool.false_eq_true, if_false, decodeIo, hv, if_true]
  refine (key _).trans ?_
  simp only [encode, List.getD_cons_succ, List.getD_cons_zero, flagWord_flag, flagWord_addr]

theorem msko (ac : AcNo) (f : IoFlag) : Statement (.msko ac f) := by
  unfold Statement
  cases f <;> revert ac <;> decide +kernel

theorem iorst (ac : AcNo) (f : IoFlag) : Statement (.iorst ac f) := by
  unfold Statement
  cases f <;> revert ac <;> decide +kernel

theorem halta (ac : AcNo) (f : IoFlag) : Statement (.halta ac f) := by
  unfold Statement
  cases f <;> revert ac <;> decide +kernel

theorem skpCpu (t : SkipTest) : Statement (.skpCpu t) := by
  unfold Statement
  cases t <;> decide +kernel

theorem disCpu (ac : AcNo) (f : IoFlag) : Statement (.disCpu ac f) := by
  unfold Statement
  cases f <;> revert ac <;> decide +kernel

theorem diaMap (ac : AcNo) (f : IoFlag) : Statement (.diaMap ac f) := by
  unfold Statement
  cases f <;> revert ac <;> decide +kernel

theorem doaMap (ac : AcNo) (f : IoFlag) : Statement (.doaMap ac f) := by
  unfold Statement
  cases f <;> revert ac <;> decide +kernel

theorem dobMap (ac : AcNo) (f : IoFlag) : Statement (.dobMap ac f) := by
  unfold Statement
  cases f <;> revert ac <;> decide +kernel

theorem dicMap (ac : AcNo) (f : IoFlag) : Statement (.dicMap ac f) := by
  unfold Statement
  cases f <;> revert ac <;> decide +kernel

theorem docMap (ac : AcNo) (f : IoFlag) : Statement (.docMap ac f) := by
  unfold Statement
  cases f <;> revert ac <;> decide +kernel

theorem niopMap (ac : AcNo) : Statement (.niopMap ac) := by
  unfold Statement
  revert ac
  decide +kernel

theorem nioMap (ac : AcNo) (f : IoFlag) : Statement (.nioMap ac f) := by
  unfold Statement
  cases f <;> revert ac <;> decide +kernel

theorem dibMap (ac : AcNo) (f : IoFlag) : Statement (.dibMap ac f) := by
  unfold Statement
  cases f <;> revert ac <;> decide +kernel

theorem disMap (ac : AcNo) (f : IoFlag) : Statement (.disMap ac f) := by
  unfold Statement
  cases f <;> revert ac <;> decide +kernel

theorem diaTti (ac : AcNo) (f : IoFlag) : Statement (.diaTti ac f) := by
  unfold Statement
  cases f <;> revert ac <;> decide +kernel

theorem doaTto (ac : AcNo) (f : IoFlag) : Statement (.doaTto ac f) := by
  unfold Statement
  cases f <;> revert ac <;> decide +kernel

theorem doaRtc (ac : AcNo) (f : IoFlag) : Statement (.doaRtc ac f) := by
  unfold Statement
  cases f <;> revert ac <;> decide +kernel

theorem diaPit (ac : AcNo) (f : IoFlag) : Statement (.diaPit ac f) := by
  unfold Statement
  cases f <;> revert ac <;> decide +kernel

theorem doaPit (ac : AcNo) (f : IoFlag) : Statement (.doaPit ac f) := by
  unfold Statement
  cases f <;> revert ac <;> decide +kernel

theorem doaErcc (ac : AcNo) (f : IoFlag) : Statement (.doaErcc ac f) := by
  unfold Statement
  cases f <;> revert ac <;> decide +kernel

theorem diaErcc (ac : AcNo) (f : IoFlag) : Statement (.diaErcc ac f) := by
  unfold Statement
  cases f <;> revert ac <;> decide +kernel

theorem dibErcc (ac : AcNo) (f : IoFlag) : Statement (.dibErcc ac f) := by
  unfold Statement
  cases f <;> revert ac <;> decide +kernel

theorem diaApl (ac : AcNo) (f : IoFlag) : Statement (.diaApl ac f) := by
  unfold Statement
  cases f <;> revert ac <;> decide +kernel

theorem doaApl (ac : AcNo) (f : IoFlag) : Statement (.doaApl ac f) := by
  unfold Statement
  cases f <;> revert ac <;> decide +kernel

end RoundTrip

end Sys2Proof.Laws
end

