-- ==== Sys2Proof/Laws/Sequences.lean ====
section
/-!
SUPPORT. What the longer shared sequences do in supervisor mode: runs of pushes and pops, blocks of words, memory operands of
the floating-point instructions, the floating-point check, the stack fault of a push, and I/O instructions.
-/

namespace Sys2Proof.Laws

open Sys2Proof.Machine

/-! ## Runs of pushes and pops -/

@[simp] theorem pushedAll_pc (ws : List Word) : ∀ s : State, (s.pushedAll ws).pc = s.pc := by
  induction ws with
  | nil => intro s; rfl
  | cons w ws ih => intro s; exact ih _

@[simp] theorem storedAbove_pc (ws : List Word) : ∀ (s : State) (a : Addr), (s.storedAbove a ws).pc = s.pc := by
  induction ws with
  | nil => intro s a; rfl
  | cons w ws ih => intro s a; exact ih _ _

theorem supervisor_storedAbove (ws : List Word) :
    ∀ {s : State} (a : Addr), Supervisor s → Supervisor (s.storedAbove a ws) := by
  induction ws with
  | nil => intro s a h; exact h
  | cons w ws ih => intro s a h; exact ih (s := s.withWord _ w) _ h

/-- The next sequential address. -/
@[simp] theorem run_nextPc (n : Nat) (s : State) : nextPc n s = .ok (s.pc + BitVec.ofNat 15 n) s := rfl

/-- Accumulators pushed upwards are pushed in their order. -/
theorem run_pushAcs :
    ∀ (n : Nat) {s : State} (_ : Supervisor s) (i : AcNo),
      pushAcs n i s = .ok () (s.pushedAll ((List.range n).map fun k => s.ac.get (i + BitVec.ofNat 2 k)))
  | 0, _, _, _ => rfl
  | n + 1, s, h, i => by
    unfold pushAcs
    rw [run_bind_ok (run_pushAc h i rfl), run_pushAcs n (s := s.pushed _) h]
    rw [List.range_succ_eq_map, List.map_cons, List.map_map, State.pushedAll]
    have e : (fun k => (s.pushed (s.ac.get i)).ac.get (i + 1 + BitVec.ofNat 2 k)) =
        (fun k => s.ac.get (i + BitVec.ofNat 2 k)) ∘ Nat.succ := by
      funext k
      simp only [pushed_ac, Function.comp]
      rw [show BitVec.ofNat 2 k.succ = 1 + BitVec.ofNat 2 k by
        rw [Nat.succ_eq_add_one, BitVec.ofNat_add, BitVec.add_comm]; rfl, BitVec.add_assoc]
    rw [e]
    simp

/-- Accumulators popped downwards. -/
theorem run_popAcsDown :
    ∀ (n : Nat) {s : State} (_ : Supervisor s) (i : AcNo), popAcsDown n i s = .ok () (s.popDown n i)
  | 0, _, _, _ => rfl
  | n + 1, s, h, i => by
    unfold popAcsDown
    rw [run_bind_ok (run_pop h), run_bind, run_setAc]
    exact run_popAcsDown n (s := s.popInto i) h _

/-- A block of words written upwards. -/
theorem run_writeUp :
    ∀ (ws : List Word) {s : State} (_ : Supervisor s) (a : Addr), writeUp a ws s = .ok () (s.storedAbove a ws)
  | [], _, _, _ => rfl
  | w :: ws, s, h, a => by
    unfold writeUp
    rw [run_bind_ok (run_memWrite h _ _)]
    exact run_writeUp ws (s := s.withWord (a + 1) w) h _

/-- A block of words read downwards. -/
theorem run_readDown {s : State} (h : Supervisor s) :
    ∀ (n : Nat) (a : Addr),
      readDown n a s = .ok ((List.range n).map fun k => s.wordAt (a - BitVec.ofNat 15 k)) s
  | 0, _ => rfl
  | n + 1, a => by
    unfold readDown
    rw [run_bind_ok (run_memRead h _), run_bind_ok (run_readDown h n _)]
    rw [List.range_succ_eq_map, List.map_cons, List.map_map]
    have e : (fun k => s.wordAt (a - 1 - BitVec.ofNat 15 k)) =
        (fun k => s.wordAt (a - BitVec.ofNat 15 k)) ∘ Nat.succ := by
      funext k
      simp only [Function.comp]
      congr 1
      bv_omega
    rw [e]
    simp

/-- The end of an instruction that pushed beyond the stack limit (44_stack R434). -/
theorem run_finishAt_fault {s : State} (h : Supervisor s) (ho : s.overflows = true) (a : Addr) :
    finishAt a s = stackFault a s := by
  unfold finishAt
  rw [run_bind_ok (run_memRead h _), run_bind_ok (run_memRead h _)]
  have : (s.wordAt slLoc).toNat < (s.wordAt spLoc).toNat := of_decide_eq_true ho
  rw [if_pos this]

/-- A trap in supervisor mode ends as `TrapEnds` says (60_exceptions R620, R656). -/
theorem trapEnds_of {s : State} (h : Supervisor s) {loc ret : Addr} {r : Host.Outcome State Fault Refusal}
    (hr : ∀ u, takeTrap loc ret s = .ok () u → r = .next u) : TrapEnds (s.withBlock ret) loc r := by
  intro a ha
  have hb := supervisor_withBlock h ret
  refine ⟨fun ho => hr _ (run_takeTrap h ha ho), fun ho e he => hr _ ?_⟩
  unfold takeTrap
  rw [run_bind_ok (run_pushBlock h ret), run_bind_ok (run_indirectAt hb ha), run_finishAt_fault hb ho]
  exact run_stackFault hb a e he

/-- A MAP protection fault ends as `MapFaults` says (47_map R582). -/
theorem mapFaults_of {s t : State} {k : MapFaultKind} {m : M Unit} (hm : m t = .error (.mapFault k) s) :
    MapFaults s k (runInstr m t) := by
  intro hp hs hq
  refine ⟨(Config.free64 s.freeIdx).setWidth 15, trapEnds_of (s := { s.faultKind k with freeIdx := s.freeIdx + 1 })
    ⟨rfl, rfl, hs, hp, hq⟩ fun u hu => ?_⟩
  rw [runInstr_mapFault hm, show mapFaultEntry k s = _ from hu]
  rfl

/-! ## Floating point -/

/-- A memory operand of a floating-point instruction (43_floating_point R341). -/
theorem run_memFp {s : State} (h : Supervisor s) (p : Prec) (e : Addr) : memFp p e s = .ok (s.floatAt p e) s := by
  cases p <;> unfold memFp State.floatAt <;> simp only
  · rw [run_bind_ok (run_memRead h _), run_bind_ok (run_memRead h _)]
    rfl
  · rw [run_bind_ok (run_memRead h _), run_bind_ok (run_memRead h _), run_bind_ok (run_memRead h _),
      run_bind_ok (run_memRead h _)]
    rfl

/-- The floating-point check ends an instruction as `FloatEnds` says (43_floating_point R340). -/
theorem floatEnds_of {u s : State} {len : Nat} {m : M Unit} (hm : m s = fpCheck len u) :
    FloatEnds u len (runInstr m s) := by
  refine ⟨fun h => runInstr_ok ?_, fun h hs => trapEnds_of (s := u.trapOff) hs fun v hv => runInstr_ok ?_⟩
  · rw [hm]
    unfold fpCheck
    rw [run_bind, run_get]
    dsimp only
    rw [h]
    rfl
  · rw [hm]
    unfold fpCheck
    rw [run_bind, run_get]
    dsimp only
    rw [h, if_pos rfl, run_bind, run_setFpsr]
    exact hv

/-! ## I/O -/

/-- An I/O instruction that is not protected: its transfer, its command, the next word (46_io R502, 47_map R579). -/
theorem run_ioInstr {s t u : State} {transfer command : M Unit} (h : (s.mapOn && !s.ms.lef && s.ms.iop) = false)
    (ht : transfer s = .ok () t) (hc : command t = .ok () u) : ioInstr transfer command s = .ok () (u.next 1) := by
  unfold ioInstr
  rw [run_bind_ok (run_ioProtect h), run_bind_ok ht, run_bind_ok hc]
  rfl

/-- An I/O instruction that is protected (47_map R579). -/
theorem run_ioInstr_protected {s : State} {transfer command : M Unit} (h : (s.mapOn && !s.ms.lef && s.ms.iop) = true) :
    ioInstr transfer command s = .error (.mapFault .io) s := by
  unfold ioInstr ioProtect
  refine run_bind_error ?_
  rw [run_bind, run_get]
  dsimp only
  rw [if_pos h]
  rfl

end Sys2Proof.Laws
end

