-- ==== Sys2Proof/Tests/Slice0.lean ====
section
/-!
SUPPORT. Tests. The smoke test of WellFormed; a word for every constructor, put together from the bit patterns of
30_encoding and 46_io with distinct field values; one-step vectors of 95_test_vectors; and, for each statement with
hypotheses, a state and operands that meet them.
-/

namespace Sys2Proof.Tests

set_option Elab.async false

open Sys2Proof.Machine

/-! ## WellFormed refuses -/

theorem test_wf_alc_no_load_never : Instr.wf (.mov ⟨0, 0, .none, .current, true, .never⟩) = false := by decide
theorem test_wf_alc_no_load_always : Instr.wf (.sub ⟨1, 2, .left, .zero, true, .always⟩) = false := by decide
theorem test_wf_alc_good : Instr.wf (.sub ⟨1, 2, .left, .zero, true, .szc⟩) = true := by decide
theorem test_wf_nio_cpu : Instr.wf (.nio 0 .none 0o77) = false := by decide
theorem test_wf_nio_map : Instr.wf (.nio 0 .none 3) = false := by decide
theorem test_wf_dia_board : ([0o77, 3, 0o10, 0o43, 2, 1].map fun d => Instr.wf (.dia 1 .start d)).any id = false := by decide
theorem test_wf_doa_board :
    ([0o77, 3, 0o11, 0o14, 0o43, 2, 1].map fun d => Instr.wf (.doa 1 .start d)).any id = false := by decide
theorem test_wf_dib_board : ([0o77, 3, 2].map fun d => Instr.wf (.dib 1 .start d)).any id = false := by decide
theorem test_wf_dob_board : ([0o77, 3].map fun d => Instr.wf (.dob 1 .start d)).any id = false := by decide
theorem test_wf_dic_board : ([0o77, 3].map fun d => Instr.wf (.dic 1 .start d)).any id = false := by decide
theorem test_wf_doc_board : ([0o77, 3].map fun d => Instr.wf (.doc 1 .start d)).any id = false := by decide
theorem test_wf_skp_cpu : Instr.wf (.skp .bn 0o77) = false := by decide
theorem test_wf_dis_ac0 : Instr.wf (.dis 0 .none 0o10) = false := by decide
theorem test_wf_dis_cpu : Instr.wf (.dis 1 .none 0o77) = false := by decide
theorem test_wf_disCpu_ac0 : Instr.wf (.disCpu 0 .none) = false := by decide
theorem test_wf_disMap_ac0 : Instr.wf (.disMap 0 .none) = false := by decide
theorem test_wf_nioCpu_start : Instr.wf (.nioCpu 0 .start) = false := by decide
theorem test_wf_doaCpu_pulse : Instr.wf (.doaCpu 0 .pulse) = false := by decide
theorem test_wf_nioMap_pulse : Instr.wf (.nioMap 0 .pulse) = false := by decide
theorem test_wf_inta_is_vct : Instr.wf (.inta 0 .pulse) = false := by decide
theorem test_wf_inta_good : Instr.wf (.inta 1 .pulse) = true := by decide

/-! ## Every constructor from a word of its encoding -/

theorem test_decode_jmp_to_adc :
    decodeWords false 0o2305 0 = some (.jmp ⟨true, .abs, 0o305⟩) ∧
    decodeWords false 0o6706 0 = some (.jsr ⟨true, .pc, 0o306⟩) ∧
    decodeWords false 0o13307 0 = some (.isz ⟨true, .ac2, 0o307⟩) ∧
    decodeWords false 0o17710 0 = some (.dsz ⟨true, .ac3, 0o310⟩) ∧
    decodeWords false 0o32311 0 = some (.lda 2 ⟨true, .abs, 0o311⟩) ∧
    decodeWords false 0o56712 0 = some (.sta 3 ⟨true, .pc, 0o312⟩) ∧
    decodeWords true 0o67313 0 = some (.lef 1 ⟨true, .ac2, 0o313⟩) ∧
    decodeWords false 0o154273 0 = some (.com ⟨2, 3, .right, .complement, true, .snc⟩) ∧
    decodeWords false 0o130734 0 = some (.neg ⟨1, 2, .swap, .zero, true, .szr⟩) ∧
    decodeWords false 0o155155 0 = some (.mov ⟨2, 3, .left, .one, true, .snr⟩) ∧
    decodeWords false 0o131676 0 = some (.inc ⟨1, 2, .right, .complement, true, .sez⟩) ∧
    decodeWords false 0o156337 0 = some (.adc ⟨2, 3, .swap, .zero, true, .sbn⟩) := by decide +kernel

theorem test_decode_sub_to_sgt :
    decodeWords false 0o132552 0 = some (.sub ⟨1, 2, .left, .one, true, .szc⟩) ∧
    decodeWords false 0o157273 0 = some (.add ⟨2, 3, .right, .complement, true, .snc⟩) ∧
    decodeWords false 0o133734 0 = some (.and ⟨1, 2, .swap, .zero, true, .szr⟩) ∧
    decodeWords false 0o144010 0 = some (.adi 2 1) ∧
    decodeWords false 0o150110 0 = some (.sbi 2 2) ∧
    decodeWords false 0o154210 0 = some (.dad 2 3) ∧
    decodeWords false 0o130310 0 = some (.dsb 1 2) ∧
    decodeWords false 0o154410 0 = some (.ior 2 3) ∧
    decodeWords false 0o130510 0 = some (.xor 1 2) ∧
    decodeWords false 0o154610 0 = some (.anc 2 3) ∧
    decodeWords false 0o130710 0 = some (.xch 1 2) ∧
    decodeWords false 0o155010 0 = some (.sgt 2 3) := by decide +kernel

theorem test_decode_sge_to_lob :
    decodeWords false 0o131110 0 = some (.sge 1 2) ∧
    decodeWords false 0o155210 0 = some (.lsh 2 3) ∧
    decodeWords false 0o131310 0 = some (.dlsh 1 2) ∧
    decodeWords false 0o145410 0 = some (.hxl 2 1) ∧
    decodeWords false 0o151510 0 = some (.hxr 2 2) ∧
    decodeWords false 0o155610 0 = some (.dhxl 2 3) ∧
    decodeWords false 0o145710 0 = some (.dhxr 2 1) ∧
    decodeWords false 0o156010 0 = some (.bto 2 3) ∧
    decodeWords false 0o132110 0 = some (.btz 1 2) ∧
    decodeWords false 0o156210 0 = some (.szb 2 3) ∧
    decodeWords false 0o132310 0 = some (.szbo 1 2) ∧
    decodeWords false 0o156410 0 = some (.lob 2 3) := by decide +kernel

theorem test_decode_lrb_to_popj :
    decodeWords false 0o132510 0 = some (.lrb 1 2) ∧
    decodeWords false 0o156610 0 = some (.cob 2 3) ∧
    decodeWords false 0o132710 0 = some (.ldb 1 2) ∧
    decodeWords false 0o157010 0 = some (.stb 2 3) ∧
    decodeWords false 0o133110 0 = some (.psh 1 2) ∧
    decodeWords false 0o157210 0 = some (.pop 2 3) ∧
    decodeWords false 0o133510 0 = some (.syc 1 2) ∧
    decodeWords false 0o113410 0 = some (.lmp) ∧
    decodeWords false 0o103710 0 = some (.pshr) ∧
    decodeWords false 0o107710 0 = some (.popb) ∧
    decodeWords false 0o113710 0 = some (.bam) ∧
    decodeWords false 0o117710 0 = some (.popj) := by decide +kernel

theorem test_decode_rtn_to_ejmp :
    decodeWords false 0o127710 0 = some (.rtn) ∧
    decodeWords false 0o133710 0 = some (.blm) ∧
    decodeWords false 0o137710 0 = some (.divx) ∧
    decodeWords false 0o143710 0 = some (.mul) ∧
    decodeWords false 0o147710 0 = some (.muls) ∧
    decodeWords false 0o153710 0 = some (.div) ∧
    decodeWords false 0o157710 0 = some (.divs) ∧
    decodeWords false 0o163710 0o123545 = some (.save 0o123545) ∧
    decodeWords false 0o167710 0 = some (.rstr) ∧
    decodeWords false 0o156530 0 = some (.xop 2 3 0o25) ∧
    decodeWords false 0o131370 0 = some (.xop1 1 2 0o13) ∧
    decodeWords false 0o103470 0o112440 = some (.ejmp ⟨true, .ac3, 0o12440⟩) := by decide +kernel

theorem test_decode_ejsr_to_snb :
    decodeWords false 0o106070 0o112441 = some (.ejsr ⟨true, .abs, 0o12441⟩) ∧
    decodeWords false 0o112470 0o112442 = some (.eisz ⟨true, .pc, 0o12442⟩) ∧
    decodeWords false 0o117070 0o112443 = some (.edsz ⟨true, .ac2, 0o12443⟩) ∧
    decodeWords false 0o103670 0o112444 = some (.pshj ⟨true, .ac3, 0o12444⟩) ∧
    decodeWords false 0o132070 0o112445 = some (.elda 2 ⟨true, .abs, 0o12445⟩) ∧
    decodeWords false 0o156470 0o112446 = some (.esta 3 ⟨true, .pc, 0o12446⟩) ∧
    decodeWords false 0o167070 0o112447 = some (.elef 1 ⟨true, .ac2, 0o12447⟩) ∧
    decodeWords false 0o113570 0o123561 = some (.eldb 2 .ac3 0o123561) ∧
    decodeWords false 0o136170 0o123562 = some (.estb 3 .abs 0o123562) ∧
    decodeWords false 0o146570 0o112452 = some (.dspa 1 ⟨true, .pc, 0o12452⟩) ∧
    decodeWords false 0o132370 0 = some (.clm 1 2) ∧
    decodeWords false 0o156770 0 = some (.snb 2 3) := by decide +kernel

theorem test_decode_msp_to_fms :
    decodeWords false 0o107370 0 = some (.msp 1) ∧
    decodeWords false 0o133370 0 = some (.xct 2) ∧
    decodeWords false 0o157370 0 = some (.hlv 3) ∧
    decodeWords false 0o107770 0o123571 = some (.iori 1 0o123571) ∧
    decodeWords false 0o133770 0o123572 = some (.xori 2 0o123572) ∧
    decodeWords false 0o157770 0o123573 = some (.andi 3 0o123573) ∧
    decodeWords false 0o167770 0o123574 = some (.addi 1 0o123574) ∧
    decodeWords false 0o154050 0 = some (.fas 2 3) ∧
    decodeWords false 0o130150 0 = some (.fad 1 2) ∧
    decodeWords false 0o154250 0 = some (.fss 2 3) ∧
    decodeWords false 0o130350 0 = some (.fsd 1 2) ∧
    decodeWords false 0o154450 0 = some (.fms 2 3) := by decide +kernel

theorem test_decode_fmd_to_flds :
    decodeWords false 0o130550 0 = some (.fmd 1 2) ∧
    decodeWords false 0o154650 0 = some (.fds 2 3) ∧
    decodeWords false 0o130750 0 = some (.fdd 1 2) ∧
    decodeWords false 0o165050 0o112474 = some (.fams 1 ⟨true, .ac3, 0o12474⟩) ∧
    decodeWords false 0o111150 0o112475 = some (.famd 2 ⟨true, .abs, 0o12475⟩) ∧
    decodeWords false 0o135250 0o112476 = some (.fsms 3 ⟨true, .pc, 0o12476⟩) ∧
    decodeWords false 0o145350 0o112477 = some (.fsmd 1 ⟨true, .ac2, 0o12477⟩) ∧
    decodeWords false 0o171450 0o112500 = some (.fmms 2 ⟨true, .ac3, 0o12500⟩) ∧
    decodeWords false 0o115550 0o112501 = some (.fmmd 3 ⟨true, .abs, 0o12501⟩) ∧
    decodeWords false 0o125650 0o112502 = some (.fdms 1 ⟨true, .pc, 0o12502⟩) ∧
    decodeWords false 0o151750 0o112503 = some (.fdmd 2 ⟨true, .ac2, 0o12503⟩) ∧
    decodeWords false 0o176050 0o112504 = some (.flds 3 ⟨true, .ac3, 0o12504⟩) := by decide +kernel

theorem test_decode_fldd_to_fscal :
    decodeWords false 0o106150 0o112505 = some (.fldd 1 ⟨true, .abs, 0o12505⟩) ∧
    decodeWords false 0o132250 0o112506 = some (.fsts 2 ⟨true, .pc, 0o12506⟩) ∧
    decodeWords false 0o156350 0o112507 = some (.fstd 3 ⟨true, .ac2, 0o12507⟩) ∧
    decodeWords false 0o166550 0o112510 = some (.flmd 1 ⟨true, .ac3, 0o12510⟩) ∧
    decodeWords false 0o112750 0o112511 = some (.ffmd 2 ⟨true, .abs, 0o12511⟩) ∧
    decodeWords false 0o176450 0 = some (.flas 3 3) ∧
    decodeWords false 0o126650 0 = some (.ffas 1 1) ∧
    decodeWords false 0o113050 0 = some (.fnom 2) ∧
    decodeWords false 0o137050 0 = some (.frh 3) ∧
    decodeWords false 0o147050 0 = some (.fab 1) ∧
    decodeWords false 0o173050 0 = some (.fneg 2) ∧
    decodeWords false 0o117150 0 = some (.fscal 3) := by decide +kernel

theorem test_decode_fexp_to_fsnm :
    decodeWords false 0o127150 0 = some (.fexp 1) ∧
    decodeWords false 0o153150 0 = some (.fint 2) ∧
    decodeWords false 0o177150 0 = some (.fhlv 3) ∧
    decodeWords false 0o103250 0 = some (.fns) ∧
    decodeWords false 0o107250 0 = some (.fsa) ∧
    decodeWords false 0o113250 0 = some (.fseq) ∧
    decodeWords false 0o117250 0 = some (.fsne) ∧
    decodeWords false 0o123250 0 = some (.fslt) ∧
    decodeWords false 0o127250 0 = some (.fsge) ∧
    decodeWords false 0o133250 0 = some (.fsle) ∧
    decodeWords false 0o137250 0 = some (.fsgt) ∧
    decodeWords false 0o143250 0 = some (.fsnm) := by decide +kernel

theorem test_decode_fsnd_to_fcle :
    decodeWords false 0o147250 0 = some (.fsnd) ∧
    decodeWords false 0o153250 0 = some (.fsnu) ∧
    decodeWords false 0o157250 0 = some (.fsnud) ∧
    decodeWords false 0o163250 0 = some (.fsno) ∧
    decodeWords false 0o167250 0 = some (.fsnod) ∧
    decodeWords false 0o173250 0 = some (.fsnuo) ∧
    decodeWords false 0o177250 0 = some (.fsner) ∧
    decodeWords false 0o117350 0o112544 = some (.fsst ⟨true, .ac3, 0o12544⟩) ∧
    decodeWords false 0o123350 0o112545 = some (.flst ⟨true, .abs, 0o12545⟩) ∧
    decodeWords false 0o143350 0 = some (.fte) ∧
    decodeWords false 0o147350 0 = some (.ftd) ∧
    decodeWords false 0o153350 0 = some (.fcle) := by decide +kernel

theorem test_decode_fpsh_to_dib :
    decodeWords false 0o163350 0 = some (.fpsh) ∧
    decodeWords false 0o167350 0 = some (.fpop) ∧
    decodeWords false 0o133450 0 = some (.fcmp 1 2) ∧
    decodeWords false 0o157550 0 = some (.fmov 2 3) ∧
    decodeWords false 0o153650 0 = some (.cmv) ∧
    decodeWords false 0o157650 0 = some (.cmp) ∧
    decodeWords false 0o163650 0 = some (.ctr) ∧
    decodeWords false 0o167650 0 = some (.cmt) ∧
    decodeWords false 0o74125 0 = some (.nio 3 .start 0o25) ∧
    decodeWords false 0o64625 0 = some (.dia 1 .clear 0o25) ∧
    decodeWords false 0o71125 0 = some (.doa 2 .start 0o25) ∧
    decodeWords false 0o75625 0 = some (.dib 3 .clear 0o25) := by decide +kernel

theorem test_decode_dob_to_inta :
    decodeWords false 0o66125 0 = some (.dob 1 .start 0o25) ∧
    decodeWords false 0o72625 0 = some (.dic 2 .clear 0o25) ∧
    decodeWords false 0o77125 0 = some (.doc 3 .start 0o25) ∧
    decodeWords false 0o63525 0 = some (.skp .bz 0o25) ∧
    decodeWords false 0o73525 0 = some (.dis 2 .start 0o25) ∧
    decodeWords false 0o74177 0 = some (.inten 3) ∧
    decodeWords false 0o64277 0 = some (.intds 1) ∧
    decodeWords false 0o70077 0 = some (.nioCpu 2 .none) ∧
    decodeWords false 0o74577 0 = some (.reads 3 .start) ∧
    decodeWords false 0o65277 0 = some (.doaCpu 1 .clear) ∧
    decodeWords false 0o71377 0 = some (.doapCpu 2) ∧
    decodeWords false 0o75677 0 = some (.inta 3 .clear) := by decide +kernel

theorem test_decode_vct_to_niopMap :
    decodeWords false 0o61777 0o112601 = some (.vct true 0o12601) ∧
    decodeWords false 0o72277 0 = some (.msko 2 .clear) ∧
    decodeWords false 0o76577 0 = some (.iorst 3 .start) ∧
    decodeWords false 0o67277 0 = some (.halta 1 .clear) ∧
    decodeWords false 0o63677 0 = some (.skpCpu .dn) ∧
    decodeWords false 0o77677 0 = some (.disCpu 3 .clear) ∧
    decodeWords false 0o64503 0 = some (.diaMap 1 .start) ∧
    decodeWords false 0o71203 0 = some (.doaMap 2 .clear) ∧
    decodeWords false 0o76103 0 = some (.dobMap 3 .start) ∧
    decodeWords false 0o66603 0 = some (.dicMap 1 .clear) ∧
    decodeWords false 0o73103 0 = some (.docMap 2 .start) ∧
    decodeWords false 0o74303 0 = some (.niopMap 3) := by decide +kernel

theorem test_decode_nioMap_to_diaApl :
    decodeWords false 0o64103 0 = some (.nioMap 1 .start) ∧
    decodeWords false 0o71603 0 = some (.dibMap 2 .clear) ∧
    decodeWords false 0o77503 0 = some (.disMap 3 .start) ∧
    decodeWords false 0o64610 0 = some (.diaTti 1 .clear) ∧
    decodeWords false 0o71111 0 = some (.doaTto 2 .start) ∧
    decodeWords false 0o75214 0 = some (.doaRtc 3 .clear) ∧
    decodeWords false 0o64543 0 = some (.diaPit 1 .start) ∧
    decodeWords false 0o71243 0 = some (.doaPit 2 .clear) ∧
    decodeWords false 0o75102 0 = some (.doaErcc 3 .start) ∧
    decodeWords false 0o64602 0 = some (.diaErcc 1 .clear) ∧
    decodeWords false 0o71502 0 = some (.dibErcc 2 .start) ∧
    decodeWords false 0o74601 0 = some (.diaApl 3 .clear) := by decide +kernel

theorem test_decode_doaApl_to_doaApl :
    decodeWords false 0o65101 0 = some (.doaApl 1 .start) := by decide +kernel

theorem test_decode_undefined :
    [0o101011, 0o103310, 0o103410, 0o123710, 0o106270, 0o163370, 0o157350].map (fun w => decodeWords false w 0) =
      List.replicate 7 none := by decide +kernel

theorem test_decode_vct_in_lef_mode : decodeWords true 0o061777 0 = some (.lef 0 ⟨false, .ac3, 0o377⟩) := by decide +kernel

theorem test_decode_bytes_truncated : decode false (bytesOf [0o163710]) = .error .truncated := by decide +kernel

theorem test_decodeTableWord_two_words : decodeTableWord 32 (0o163710 + 65536 * 2) = some (.save 2) := by decide +kernel

theorem test_decodeTableWord_short : decodeTableWord 16 0o163710 = some (.save 0) := by decide +kernel

/-! ## One step: vectors of 95_test_vectors -/

/-- A running machine in supervisor mode: accumulators, carry, program counter, words of memory. -/
def lab (ac : Quad Word) (cry : Bool) (pc : Addr) (words : List (Addr × Word)) : State :=
  { State.reset with
    runState := .running, con := ⟨false, false, false, false, false, false⟩, ac := ac, cry := cry, pc := pc
    mem := words.foldl (fun m p => Memory.writeWord m p.1.toNat p.2) [] }

/-- A step that goes on to a state with a property. -/
def goes (r : Host.Outcome State Fault Refusal) (p : State → Bool) : Bool :=
  match r with
  | .next t => p t
  | _ => false

/-- A floating-point number from its four words. -/
def fp (a b c d : Word) : QWord := a ++ b ++ c ++ d

theorem test_adc :
    goes (step (lab ⟨0o345, 0o10101, 0, 0⟩ false 0o1000 [(0o1000, 0o122000)]))
      (fun t => decide (t.ac.q0 = 0o170243) && !t.cry) = true := by decide +kernel

theorem test_add_carry_out :
    goes (step (lab ⟨0o177777, 1, 0, 0⟩ true 0o1000 [(0o1000, 0o123000)]))
      (fun t => decide (t.ac.q0 = 0) && !t.cry) = true := by decide +kernel

theorem test_addzl :
    goes (step (lab ⟨0, 0, 0o40001, 0⟩ true 0o1000 [(0o1000, 0o153120)]))
      (fun t => decide (t.ac.q2 = 4) && t.cry) = true := by decide +kernel

theorem test_and_swapped :
    goes (step (lab ⟨0, 0o377, 0o123456, 0⟩ false 0o1000 [(0o1000, 0o133700)]))
      (fun t => decide (t.ac.q2 = 0o27000)) = true := by decide +kernel

theorem test_com_no_load_skip :
    goes (step (lab ⟨0, 0o177777, 0, 5⟩ false 0o1000 [(0o1000, 0o134014)]))
      (fun t => decide (t.ac.q3 = 5) && decide (t.pc = 0o1002)) = true := by decide +kernel

theorem test_incz :
    goes (step (lab ⟨0o177777, 0, 0, 0⟩ true 0o1000 [(0o1000, 0o101420)]))
      (fun t => decide (t.ac.q0 = 0) && t.cry) = true := by decide +kernel

theorem test_inc_other_destination :
    goes (step (lab ⟨0, 0, 0o77777, 0⟩ false 0o1000 [(0o1000, 0o155400)]))
      (fun t => decide (t.ac.q2 = 0o77777) && decide (t.ac.q3 = 0o100000)) = true := by decide +kernel

theorem test_movr :
    goes (step (lab ⟨0, 0o100001, 0, 0⟩ false 0o1000 [(0o1000, 0o125200)]))
      (fun t => decide (t.ac.q1 = 0o40000) && t.cry) = true := by decide +kernel

theorem test_movcs :
    goes (step (lab ⟨0o377, 0, 0, 0⟩ true 0o1000 [(0o1000, 0o105360)]))
      (fun t => decide (t.ac.q1 = 0o177400) && !t.cry) = true := by decide +kernel

theorem test_neg_zero :
    goes (step (lab ⟨0, 0, 0, 0⟩ false 0o1000 [(0o1000, 0o100400)]))
      (fun t => decide (t.ac.q0 = 0) && t.cry) = true := by decide +kernel

theorem test_subcl :
    goes (step (lab ⟨0o12, 0, 0, 0⟩ true 0o1000 [(0o1000, 0o102560)]))
      (fun t => decide (t.ac.q0 = 1) && !t.cry) = true := by decide +kernel

theorem test_sub_skip_no_load :
    goes (step (lab ⟨0, 0, 5, 6⟩ false 0o1000 [(0o1000, 0o156415)]))
      (fun t => decide (t.ac.q3 = 6) && decide (t.pc = 0o1002)) = true := by decide +kernel

theorem test_addi :
    goes (step (lab ⟨1, 0, 0, 0⟩ true 0o1000 [(0o1000, 0o163770), (0o1001, 0o177777)]))
      (fun t => decide (t.ac.q0 = 0) && t.cry && decide (t.pc = 0o1002)) = true := by decide +kernel

theorem test_adi :
    goes (step (lab ⟨0, 0, 0o177775, 0⟩ false 0o1000 [(0o1000, 0o170010)]))
      (fun t => decide (t.ac.q2 = 1)) = true := by decide +kernel

theorem test_sbi :
    goes (step (lab ⟨0, 2, 0, 0⟩ false 0o1000 [(0o1000, 0o164110)]))
      (fun t => decide (t.ac.q1 = 0o177776)) = true := by decide +kernel

theorem test_anc :
    goes (step (lab ⟨0o177775, 7, 0, 0⟩ false 0o1000 [(0o1000, 0o104610)]))
      (fun t => decide (t.ac.q1 = 2)) = true := by decide +kernel

theorem test_ior :
    goes (step (lab ⟨0o2245, 0o10133, 0, 0⟩ false 0o1000 [(0o1000, 0o104410)]))
      (fun t => decide (t.ac.q1 = 0o12377)) = true := by decide +kernel

theorem test_xor :
    goes (step (lab ⟨0o3156, 0o20701, 0, 0⟩ false 0o1000 [(0o1000, 0o104510)]))
      (fun t => decide (t.ac.q1 = 0o23657) && decide (t.ac.q0 = 0o3156)) = true := by decide +kernel

theorem test_andi :
    goes (step (lab ⟨0, 0, 0o123456, 0⟩ false 0o1000 [(0o1000, 0o153770), (0o1001, 0o377)]))
      (fun t => decide (t.ac.q2 = 0o56)) = true := by decide +kernel

theorem test_iori :
    goes (step (lab ⟨1, 0, 0, 0⟩ false 0o1000 [(0o1000, 0o103770), (0o1001, 0o100000)]))
      (fun t => decide (t.ac.q0 = 0o100001)) = true := by decide +kernel

theorem test_xori :
    goes (step (lab ⟨0, 0, 0, 0o52525⟩ false 0o1000 [(0o1000, 0o137770), (0o1001, 0o177777)]))
      (fun t => decide (t.ac.q3 = 0o125252)) = true := by decide +kernel

theorem test_xch :
    goes (step (lab ⟨1, 0, 0, 2⟩ false 0o1000 [(0o1000, 0o114710)]))
      (fun t => decide (t.ac.q0 = 2) && decide (t.ac.q3 = 1)) = true := by decide +kernel

theorem test_lsh_right_one :
    goes (step (lab ⟨0o377, 0o24712, 0, 0⟩ false 0o1000 [(0o1000, 0o105210)]))
      (fun t => decide (t.ac.q1 = 0o12345)) = true := by decide +kernel

theorem test_lsh_same_accumulator :
    goes (step (lab ⟨0, 2, 0, 0⟩ false 0o1000 [(0o1000, 0o125210)]))
      (fun t => decide (t.ac.q1 = 0o10)) = true := by decide +kernel

theorem test_dlsh_wraps_to_ac0 :
    goes (step (lab ⟨0o170000, 0, 0o10, 0o377⟩ false 0o1000 [(0o1000, 0o155310)]))
      (fun t => decide (t.ac.q3 = 0o177760) && decide (t.ac.q0 = 0)) = true := by decide +kernel

theorem test_hxl :
    goes (step (lab ⟨0, 0o4523, 0, 0⟩ false 0o1000 [(0o1000, 0o125410)]))
      (fun t => decide (t.ac.q1 = 0o51400)) = true := by decide +kernel

theorem test_hxr :
    goes (step (lab ⟨0o123456, 0, 0, 0⟩ false 0o1000 [(0o1000, 0o101510)]))
      (fun t => decide (t.ac.q0 = 0o5162)) = true := by decide +kernel

theorem test_dhxl :
    goes (step (lab ⟨0o1160, 0o50010, 0, 0⟩ false 0o1000 [(0o1000, 0o101610)]))
      (fun t => decide (t.ac.q0 = 0o23405) && decide (t.ac.q1 = 0o200)) = true := by decide +kernel

theorem test_dhxr :
    goes (step (lab ⟨1, 0, 0, 0o123456⟩ false 0o1000 [(0o1000, 0o175710)]))
      (fun t => decide (t.ac.q3 = 0) && decide (t.ac.q0 = 0o123456)) = true := by decide +kernel

theorem test_hlv :
    goes (step (lab ⟨0o177775, 0, 0, 0⟩ false 0o1000 [(0o1000, 0o143370)]))
      (fun t => decide (t.ac.q0 = 0o177777)) = true := by decide +kernel

theorem test_mul :
    goes (step (lab ⟨0o177777, 0o177777, 0o177777, 0⟩ false 0o1000 [(0o1000, 0o143710)]))
      (fun t => decide (t.ac.q0 = 0o177777) && decide (t.ac.q1 = 0)) = true := by decide +kernel

theorem test_muls :
    goes (step (lab ⟨0o177777, 3, 0o177776, 0⟩ false 0o1000 [(0o1000, 0o147710)]))
      (fun t => decide (t.ac.q0 = 0o177777) && decide (t.ac.q1 = 0o177771)) = true := by decide +kernel

theorem test_div :
    goes (step (lab ⟨0, 7, 2, 0⟩ true 0o1000 [(0o1000, 0o153710)]))
      (fun t => decide (t.ac.q0 = 1) && decide (t.ac.q1 = 3) && !t.cry) = true := by decide +kernel

theorem test_div_overflow :
    goes (step (lab ⟨0, 7, 0, 0⟩ false 0o1000 [(0o1000, 0o153710)]))
      (fun t => decide (t.ac.q0 = 0) && decide (t.ac.q1 = 7) && t.cry) = true := by decide +kernel

theorem test_divs :
    goes (step (lab ⟨0o177777, 0o177771, 2, 0⟩ false 0o1000 [(0o1000, 0o157710)]))
      (fun t => decide (t.ac.q0 = 0o177777) && decide (t.ac.q1 = 0o177775) && !t.cry) = true := by decide +kernel

theorem test_divx :
    goes (step (lab ⟨0, 0o177771, 2, 0⟩ false 0o1000 [(0o1000, 0o137710)]))
      (fun t => decide (t.ac.q0 = 0o177777) && decide (t.ac.q1 = 0o177775) && !t.cry) = true := by decide +kernel

theorem test_dad :
    goes (step (lab ⟨0, 0, 0o11, 7⟩ false 0o1000 [(0o1000, 0o154210)]))
      (fun t => decide (t.ac.q3 = 6) && t.cry) = true := by decide +kernel

theorem test_dsb :
    goes (step (lab ⟨0, 0, 0, 0⟩ false 0o1000 [(0o1000, 0o104310)]))
      (fun t => decide (t.ac.q1 = 0o11) && !t.cry) = true := by decide +kernel

theorem test_cob :
    goes (step (lab ⟨0o123450, 0o103, 0, 0⟩ false 0o1000 [(0o1000, 0o122610)]))
      (fun t => decide (t.ac.q0 = 0o123453)) = true := by decide +kernel

theorem test_lob :
    goes (step (lab ⟨0o100, 0, 0, 0⟩ false 0o1000 [(0o1000, 0o122410)]))
      (fun t => decide (t.ac.q0 = 0o120)) = true := by decide +kernel

theorem test_lrb :
    goes (step (lab ⟨0, 0o500, 0, 0⟩ false 0o1000 [(0o1000, 0o122510)]))
      (fun t => decide (t.ac.q0 = 7) && decide (t.ac.q1 = 0o100)) = true := by decide +kernel

theorem test_lda_two_levels :
    goes (step (lab ⟨0, 0, 0, 0⟩ false 0o1000 [(0o1000, 0o26020), (0o20, 0o100030), (0o30, 0o4321), (0o4321, 0o777)]))
      (fun t => decide (t.ac.q1 = 0o777)) = true := by decide +kernel

theorem test_lda_index_wraps :
    goes (step (lab ⟨0, 0, 0o100000, 0⟩ false 0o1000 [(0o1000, 0o21377), (0o77777, 0o123)]))
      (fun t => decide (t.ac.q0 = 0o123)) = true := by decide +kernel

theorem test_sta_no_autoincrement :
    goes (step (lab ⟨0o123456, 0, 0, 0⟩ false 0o1000 [(0o1000, 0o42020), (0o20, 0o2000)]))
      (fun t => decide (t.wordAt 0o2000 = 0o123456) && decide (t.wordAt 0o20 = 0o2000)) = true := by decide +kernel

theorem test_elda_relative :
    goes (step (lab ⟨0, 0, 0, 0⟩ false 0o1000 [(0o1000, 0o132470), (0o1001, 2), (0o1003, 0o55)]))
      (fun t => decide (t.ac.q2 = 0o55) && decide (t.pc = 0o1002)) = true := by decide +kernel

theorem test_esta :
    goes (step (lab ⟨0, 0o10101, 0, 0⟩ false 0o1000 [(0o1000, 0o146070), (0o1001, 0o1123)]))
      (fun t => decide (t.wordAt 0o1123 = 0o10101)) = true := by decide +kernel

theorem test_elef_here :
    goes (step (lab ⟨0, 0, 0, 0⟩ false 0o1000 [(0o1000, 0o162470), (0o1001, 0o77777)]))
      (fun t => decide (t.ac.q0 = 0o1000)) = true := by decide +kernel

theorem test_ldb :
    goes (step (lab ⟨0, 0, 0o2471, 0⟩ false 0o1000 [(0o1000, 0o142710), (0o1234, 0o40522)]))
      (fun t => decide (t.ac.q0 = 0o122)) = true := by decide +kernel

theorem test_stb :
    goes (step (lab ⟨0o177601, 0, 0o2470, 0⟩ false 0o1000 [(0o1000, 0o143010), (0o1234, 0o40522)]))
      (fun t => decide (t.wordAt 0o1234 = 0o100522)) = true := by decide +kernel

theorem test_eldb :
    goes (step (lab ⟨0, 0, 0, 0⟩ false 0o1000 [(0o1000, 0o106170), (0o1001, 0o1701), (0o740, 0o353)]))
      (fun t => decide (t.ac.q1 = 0o353)) = true := by decide +kernel

theorem test_estb :
    goes (step (lab ⟨0o101, 0, 0, 0⟩ false 0o1000 [(0o1000, 0o122170), (0o1001, 0o1701), (0o740, 0o41000)]))
      (fun t => decide (t.wordAt 0o740 = 0o41101)) = true := by decide +kernel

theorem test_blm_one_word :
    goes (step (lab ⟨0, 3, 0o2000, 0o3000⟩ false 0o1000 [(0o1000, 0o133710), (0o2000, 7)]))
      (fun t => decide (t.wordAt 0o3000 = 7) && decide (t.ac.q1 = 2) && decide (t.ac.q2 = 0o2001) &&
        decide (t.ac.q3 = 0o3001) && decide (t.pc = 0o1000)) = true := by decide +kernel

theorem test_bam_last_word :
    goes (step (lab ⟨0o10, 1, 0o2000, 0o3000⟩ false 0o1000 [(0o1000, 0o113710), (0o2000, 0o177777)]))
      (fun t => decide (t.wordAt 0o3000 = 7) && decide (t.ac.q1 = 0) &&
        decide (t.pc = 0o1001)) = true := by decide +kernel

theorem test_cmv_pads :
    goes (step (lab ⟨1, 0, 0o4000, 0⟩ true 0o1000 [(0o1000, 0o153650)]))
      (fun t => decide (t.wordAt 0o2000 = 0o20000) && decide (t.ac.q0 = 0) && decide (t.ac.q2 = 0o4001) && !t.cry &&
        decide (t.pc = 0o1001)) = true := by decide +kernel

theorem test_cmp_greater :
    goes (step (lab ⟨1, 1, 0o4000, 0o4001⟩ false 0o1000 [(0o1000, 0o157650), (0o2000, 0o40502)]))
      (fun t => decide (t.ac.q1 = 1) && decide (t.ac.q2 = 0o4000)) = true := by decide +kernel

theorem test_ctr_translates :
    goes (step (lab ⟨0o100, 0o177777, 0o4000, 0o4002⟩ false 0o1000 [(0o1000, 0o163650), (0o100, 0o6000), (0o2001,
        0o40400), (0o3040, 0o126)]))
      (fun t => decide (t.wordAt 0o2000 = 0o53000) && decide (t.ac.q1 = 0) && decide (t.ac.q2 = 0o4001) &&
        decide (t.ac.q3 = 0o4003) && decide (t.pc = 0o1001)) = true := by decide +kernel

theorem test_cmt_delimiter :
    goes (step (lab ⟨0o500, 5, 0o4000, 0o4002⟩ false 0o1000 [(0o1000, 0o167650), (0o504, 0o40000), (0o2001, 0o40400)]))
      (fun t => decide (t.ac.q1 = 5) && decide (t.ac.q2 = 0o4000) && decide (t.pc = 0o1001)) = true := by decide +kernel

theorem test_bto :
    goes (step (lab ⟨0o23450, 0o147, 0, 0⟩ false 0o1000 [(0o1000, 0o106010), (0o23456, 0o10103)]))
      (fun t => decide (t.wordAt 0o23456 = 0o10503)) = true := by decide +kernel

theorem test_btz :
    goes (step (lab ⟨0o23450, 0o147, 0, 0⟩ false 0o1000 [(0o1000, 0o106110), (0o23456, 0o10503)]))
      (fun t => decide (t.wordAt 0o23456 = 0o10103)) = true := by decide +kernel

theorem test_snb :
    goes (step (lab ⟨0, 0, 0o101, 0o65⟩ false 0o1000 [(0o1000, 0o156770), (0o104, 0o2000)]))
      (fun t => decide (t.pc = 0o1002)) = true := by decide +kernel

theorem test_szb :
    goes (step (lab ⟨0, 0, 0o101, 0o65⟩ false 0o1000 [(0o1000, 0o156210), (0o104, 0o2000)]))
      (fun t => decide (t.pc = 0o1001)) = true := by decide +kernel

theorem test_szbo :
    goes (step (lab ⟨0, 0, 0o101, 0o65⟩ false 0o1000 [(0o1000, 0o156310)]))
      (fun t => decide (t.wordAt 0o104 = 0o2000) && decide (t.pc = 0o1002)) = true := by decide +kernel

theorem test_flas :
    goes (step (lab ⟨0o100000, 0, 0, 0⟩ false 0o1000 [(0o1000, 0o106450)]))
      (fun t => decide (t.fpac.q1 = fp 0o142200 0 0 0) && t.fpsr.n) = true := by decide +kernel

theorem test_flds :
    goes (step { lab ⟨0, 0, 0, 0⟩ false 0o1000 [(0o1000, 0o106050), (0o1001, 0o500), (0o500, 0o40420)] with
        fpac := ⟨0, 0xFFFFFFFFFFFFFFFF, 0, 0⟩ })
      (fun t => decide (t.fpac.q1 = fp 0o40420 0 0 0)) = true := by decide +kernel

theorem test_fas_overflow :
    goes (step { lab ⟨0, 0, 0, 0⟩ false 0o1000 [(0o1000, 0o104050)] with
        fpac := ⟨fp 0o77777 0o177777 0 0, fp 0o77777 0o177777 0 0, 0, 0⟩ })
      (fun t => decide (t.fpac.q1 = fp 0o37 0o177777 0 0) && t.fpsr.ovf &&
        decide (t.fpsr.fppc = 0o1000)) = true := by decide +kernel

theorem test_fss :
    goes (step { lab ⟨0, 0, 0, 0⟩ false 0o1000 [(0o1000, 0o104250)] with
        fpac := ⟨fp 0o40125 0o52525 0 0, fp 0o40460 0 0 0, 0, 0⟩ })
      (fun t => decide (t.fpac.q1 = fp 0o40452 0o125252 0 0)) = true := by decide +kernel

theorem test_fms :
    goes (step { lab ⟨0, 0, 0, 0⟩ false 0o1000 [(0o1000, 0o104450)] with
        fpac := ⟨fp 0o40020 0 0 0, fp 0o40020 0 0 0, 0, 0⟩ })
      (fun t => decide (t.fpac.q1 = fp 0o37420 0 0 0)) = true := by decide +kernel

theorem test_fds :
    goes (step { lab ⟨0, 0, 0, 0⟩ false 0o1000 [(0o1000, 0o120650), (0o40, 0o400)] with
        fpac := ⟨fp 0o40420 0 0 0, fp 0o40460 0 0 0, 0, 0⟩ })
      (fun t => decide (t.fpac.q0 = fp 0o40125 0o52525 0 0)) = true := by decide +kernel

theorem test_fds_by_zero :
    goes (step { lab ⟨0, 0, 0, 0⟩ false 0o1000 [(0o1000, 0o120650), (0o40, 0o400)] with
        fpac := ⟨fp 0o40420 0 0 0, 0, 0, 0⟩ })
      (fun t => decide (t.fpac.q0 = fp 0o40420 0 0 0) && t.fpsr.dvz) = true := by decide +kernel

theorem test_fnom :
    goes (step { lab ⟨0, 0, 0, 0⟩ false 0o1000 [(0o1000, 0o103050)] with fpac := ⟨fp 0o41000 0o400 0 0, 0, 0, 0⟩ })
      (fun t => decide (t.fpac.q0 = fp 0o37420 0 0 0)) = true := by decide +kernel

theorem test_fhlv_underflow :
    goes (step { lab ⟨0, 0, 0, 0⟩ false 0o1000 [(0o1000, 0o163150)] with fpac := ⟨fp 0o20 0 0 0, 0, 0, 0⟩ })
      (fun t => decide (t.fpac.q0 = fp 0o77600 0 0 0) && t.fpsr.unf) = true := by decide +kernel

theorem test_fscal :
    goes (step { lab ⟨0o41400, 0, 0, 0⟩ false 0o1000 [(0o1000, 0o103150)] with fpac := ⟨fp 0o40454 0 0 0, 0, 0, 0⟩ })
      (fun t => decide (t.fpac.q0 = fp 0o41400 0o26000 0 0)) = true := by decide +kernel

theorem test_fint :
    goes (step { lab ⟨0, 0, 0, 0⟩ false 0o1000 [(0o1000, 0o143150)] with fpac := ⟨fp 0o140454 0 0 0, 0, 0, 0⟩ })
      (fun t => decide (t.fpac.q0 = fp 0o140440 0 0 0) && t.fpsr.n) = true := by decide +kernel

theorem test_ffas :
    goes (step { lab ⟨0, 0, 0, 0⟩ false 0o1000 [(0o1000, 0o142650)] with fpac := ⟨fp 0o140454 0 0 0, 0, 0, 0⟩ })
      (fun t => decide (t.ac.q2 = 0o177776)) = true := by decide +kernel

theorem test_ffas_too_large :
    goes (step { lab ⟨0, 0, 0, 0⟩ false 0o1000 [(0o1000, 0o142650)] with fpac := ⟨fp 0o42420 0o20 0 0, 0, 0, 0⟩ })
      (fun t => decide (t.ac.q2 = 1) && t.fpsr.mof) = true := by decide +kernel

theorem test_fneg :
    goes (step { lab ⟨0, 0, 0, 0⟩ false 0o1000 [(0o1000, 0o163050)] with fpac := ⟨fp 0o40420 0 0 0, 0, 0, 0⟩ })
      (fun t => decide (t.fpac.q0 = fp 0o140420 0 0 0) && t.fpsr.n) = true := by decide +kernel

theorem test_fab :
    goes (step { lab ⟨0, 0, 0, 0⟩ false 0o1000 [(0o1000, 0o143050)] with fpac := ⟨fp 0o140420 0 0 0, 0, 0, 0⟩ })
      (fun t => decide (t.fpac.q0 = fp 0o40420 0 0 0)) = true := by decide +kernel

theorem test_fcle :
    goes (step { lab ⟨0, 0, 0, 0⟩ false 0o1000 [(0o1000, 0o153350)] with
        fpsr := ⟨true, false, false, false, true, false, false, false, 0⟩ })
      (fun t => !t.fpsr.ovf && t.fpsr.te) = true := by decide +kernel

theorem test_fas_fault :
    goes (step { lab ⟨1, 2, 3, 4⟩ true 0o1000 [(0o1000, 0o104050), (0o40, 0o477), (0o42, 0o577), (0o45, 0o3400)] with
        fpac := ⟨fp 0o77777 0o177777 0 0, fp 0o77777 0o177777 0 0, 0, 0⟩, fpsr := ⟨false, false, false, false, true, false, false, false, 0⟩ })
      (fun t => decide (t.fpac.q1 = fp 0o37 0o177777 0 0) && !t.fpsr.te && t.fpsr.ovf &&
        decide (t.wordAt 0o500 = 1) && decide (t.wordAt 0o503 = 4) && decide (t.wordAt 0o504 = 0o101001) && decide (t.wordAt 0o40 = 0o504) && decide (t.pc = 0o3400)) = true := by decide +kernel

theorem test_psh_around :
    goes (step (lab ⟨1, 0, 0, 7⟩ false 0o1000 [(0o1000, 0o163110), (0o40, 0o477), (0o41, 0o450), (0o42, 0o577)]))
      (fun t => decide (t.wordAt 0o500 = 7) && decide (t.wordAt 0o501 = 1) &&
        decide (t.wordAt 0o40 = 0o501)) = true := by decide +kernel

theorem test_pop :
    goes (step (lab ⟨0, 0, 0, 0⟩ false 0o1000 [(0o1000, 0o143210), (0o40, 0o502), (0o500, 1), (0o501, 2), (0o502, 3)]))
      (fun t => decide (t.ac.q2 = 3) && decide (t.ac.q1 = 2) && decide (t.ac.q0 = 1) &&
        decide (t.wordAt 0o40 = 0o477)) = true := by decide +kernel

theorem test_pshr :
    goes (step (lab ⟨0, 0, 0, 0⟩ false 0o1000 [(0o1000, 0o103710), (0o40, 0o477), (0o41, 0o450), (0o42, 0o577)]))
      (fun t => decide (t.wordAt 0o500 = 0o1002) && decide (t.pc = 0o1001)) = true := by decide +kernel

theorem test_popj :
    goes (step (lab ⟨0, 0, 0, 0⟩ false 0o1000 [(0o1000, 0o117710), (0o40, 0o500), (0o500, 0o101002)]))
      (fun t => decide (t.pc = 0o1002) && decide (t.wordAt 0o40 = 0o477) && !t.cry) = true := by decide +kernel

theorem test_pshj :
    goes (step (lab ⟨0, 0, 0, 0⟩ false 0o1000 [(0o1000, 0o102270), (0o1001, 0o2000), (0o40, 0o477), (0o41, 0o450),
        (0o42, 0o577)]))
      (fun t => decide (t.wordAt 0o500 = 0o1002) && decide (t.pc = 0o2000)) = true := by decide +kernel

theorem test_popb :
    goes (step (lab ⟨0, 0, 0, 0⟩ false 0o1000 [(0o1000, 0o107710), (0o40, 0o504), (0o500, 1), (0o501, 2), (0o502, 3),
        (0o503, 4), (0o504, 0o101234)]))
      (fun t => decide (t.ac.q0 = 1) && decide (t.ac.q1 = 2) && decide (t.ac.q2 = 3) && decide (t.ac.q3 = 4) &&
        t.cry && decide (t.pc = 0o1234) && decide (t.wordAt 0o40 = 0o477)) = true := by decide +kernel

theorem test_save :
    goes (step (lab ⟨1, 2, 3, 0o1001⟩ true 0o1000 [(0o1000, 0o163710), (0o1001, 2), (0o40, 0o377), (0o41, 0o377),
        (0o42, 0o434)]))
      (fun t => decide (t.wordAt 0o403 = 0o377) && decide (t.wordAt 0o404 = 0o101001) &&
        decide (t.wordAt 0o41 = 0o404) && decide (t.ac.q3 = 0o404) && decide (t.wordAt 0o40 = 0o406) && decide (t.pc = 0o1002)) = true := by decide +kernel

theorem test_rtn :
    goes (step (lab ⟨0o11, 0o11, 0o11, 0o11⟩ false 0o1000 [(0o1000, 0o127710), (0o41, 0o404), (0o400, 1), (0o401, 2),
        (0o402, 3), (0o403, 0o377), (0o404, 0o101001)]))
      (fun t => decide (t.ac.q0 = 1) && decide (t.ac.q3 = 0o377) && decide (t.wordAt 0o41 = 0o377) &&
        decide (t.wordAt 0o40 = 0o377) && t.cry && decide (t.pc = 0o1001)) = true := by decide +kernel

theorem test_msp_fault :
    goes (step (lab ⟨0, 0o10, 0, 0⟩ false 0o1000 [(0o1000, 0o107370), (0o40, 0o430), (0o42, 0o434), (0o43, 0o3000)]))
      (fun t => decide (t.wordAt 0o40 = 0o435) && decide (t.wordAt 0o42 = 0o100434) &&
        decide (t.wordAt 0o432 = 0o10) && decide (t.wordAt 0o435 = 0o1000) && decide (t.pc = 0o3000)) = true := by decide +kernel

theorem test_rstr :
    goes (step (lab ⟨0, 0, 0, 0⟩ false 0o1000 [(0o1000, 0o167710), (0o40, 0o2010), (0o2000, 0o477), (0o2001, 0o450),
        (0o2002, 0o577), (0o2003, 0o3000), (0o2004, 1), (0o2005, 2), (0o2006, 3), (0o2007, 4), (0o2010, 0o100200)]))
      (fun t => decide (t.wordAt 0o40 = 0o477) && decide (t.wordAt 0o41 = 0o450) && decide (t.wordAt 0o42 = 0o577) &&
        decide (t.wordAt 0o43 = 0o3000) && decide (t.ac.q0 = 1) && decide (t.ac.q3 = 4) && t.cry && decide (t.pc = 0o200)) = true := by decide +kernel

theorem test_psh_at_the_top :
    goes (step (lab ⟨5, 0, 0, 0⟩ false 0o1000 [(0o1000, 0o103110), (0o40, 0o177777), (0o42, 0o177777)]))
      (fun t => decide (t.wordAt 0 = 5) && decide (t.wordAt 0o40 = 0) &&
        decide (t.pc = 0o1001)) = true := by decide +kernel

theorem test_psh_stack_fault :
    goes (step (lab ⟨0o11, 0o22, 0o33, 0o44⟩ true 0o1000 [(0o1000, 0o117110), (0o40, 0o432), (0o41, 0o377), (0o42,
        0o434), (0o43, 0o102000), (0o2000, 0o3000)]))
      (fun t => decide (t.wordAt 0o40 = 0o443) && decide (t.wordAt 0o42 = 0o100434) &&
        decide (t.wordAt 0o437 = 0o11) && decide (t.wordAt 0o443 = 0o101001) && decide (t.pc = 0o3000)) = true := by decide +kernel

theorem test_jmp_wraps :
    goes (step (lab ⟨0, 0, 0, 0⟩ false 0 [(0, 0o777)]))
      (fun t => decide (t.pc = 0o77777)) = true := by decide +kernel

theorem test_jsr_old_ac3 :
    goes (step (lab ⟨0, 0, 0, 0o2000⟩ false 0o1000 [(0o1000, 0o7400), (0o2000, 0o3000)]))
      (fun t => decide (t.pc = 0o3000) && decide (t.ac.q3 = 0o1001)) = true := by decide +kernel

theorem test_ejsr :
    goes (step (lab ⟨0, 0, 0, 0⟩ false 0o1000 [(0o1000, 0o106070), (0o1001, 0o4000)]))
      (fun t => decide (t.pc = 0o4000) && decide (t.ac.q3 = 0o1002)) = true := by decide +kernel

theorem test_ejmp_relative :
    goes (step (lab ⟨0, 0, 0, 0⟩ false 0o1000 [(0o1000, 0o102470), (0o1001, 4)]))
      (fun t => decide (t.pc = 0o1005)) = true := by decide +kernel

theorem test_isz :
    goes (step (lab ⟨0, 0, 0, 0⟩ false 0o1000 [(0o1000, 0o10050), (0o50, 0o177777)]))
      (fun t => decide (t.wordAt 0o50 = 0) && decide (t.pc = 0o1002)) = true := by decide +kernel

theorem test_dsz :
    goes (step (lab ⟨0, 0, 0, 0⟩ false 0o1000 [(0o1000, 0o14050)]))
      (fun t => decide (t.wordAt 0o50 = 0o177777) && decide (t.pc = 0o1001)) = true := by decide +kernel

theorem test_eisz :
    goes (step (lab ⟨0, 0, 0, 0⟩ false 0o1000 [(0o1000, 0o112070), (0o1001, 0o2000), (0o2000, 0o177777)]))
      (fun t => decide (t.wordAt 0o2000 = 0) && decide (t.pc = 0o1003)) = true := by decide +kernel

theorem test_sge :
    goes (step (lab ⟨0o177777, 1, 0, 0⟩ false 0o1000 [(0o1000, 0o105110)]))
      (fun t => decide (t.pc = 0o1001)) = true := by decide +kernel

theorem test_sgt :
    goes (step (lab ⟨0o100000, 0o77777, 0, 0⟩ false 0o1000 [(0o1000, 0o121010)]))
      (fun t => decide (t.pc = 0o1002)) = true := by decide +kernel

theorem test_clm_in_line :
    goes (step (lab ⟨0o10, 0, 0, 0⟩ false 0o1000 [(0o1000, 0o102370), (0o1001, 3), (0o1002, 7)]))
      (fun t => decide (t.pc = 0o1003)) = true := by decide +kernel

theorem test_clm_by_address :
    goes (step (lab ⟨5, 0, 0o2000, 0⟩ false 0o1000 [(0o1000, 0o112370), (0o2000, 3), (0o2001, 7)]))
      (fun t => decide (t.pc = 0o1002)) = true := by decide +kernel

theorem test_dspa :
    goes (step (lab ⟨3, 0, 0, 0⟩ false 0o1000 [(0o1000, 0o142170), (0o1001, 0o2002), (0o2000, 1), (0o2001, 3), (0o2002,
        0o3000), (0o2003, 0o177777), (0o2004, 0o103100), (0o3100, 0o3300)]))
      (fun t => decide (t.pc = 0o3300)) = true := by decide +kernel

theorem test_xct :
    goes (step (lab ⟨7, 0, 0o101400, 0⟩ false 0o1000 [(0o1000, 0o133370)]))
      (fun t => decide (t.ac.q0 = 0o10) && decide (t.pc = 0o1001)) = true := by decide +kernel

theorem test_xct_blm_keeps_its_word :
    goes (step (lab ⟨0, 2, 0o133710, 0o3000⟩ false 0o1000 [(0o1000, 0o133370), (0o33710, 0o2000), (0o2000, 7)]))
      (fun t => decide (t.xct = some 0o133710) && decide (t.ac.q2 = 0o2001) && decide (t.wordAt 0o3000 = 7) &&
        decide (t.pc = 0o1000)) = true := by decide +kernel

theorem test_xop :
    goes (step (lab ⟨1, 2, 3, 4⟩ false 0o1000 [(0o1000, 0o120330), (0o40, 0o477), (0o41, 0o450), (0o42, 0o577), (0o44,
        0o2000), (0o2003, 0o4000)]))
      (fun t => decide (t.wordAt 0o500 = 1) && decide (t.wordAt 0o503 = 4) && decide (t.wordAt 0o504 = 0o1001) &&
        decide (t.ac.q2 = 0o501) && decide (t.ac.q3 = 0o500) && decide (t.wordAt 0o40 = 0o504) && decide (t.pc = 0o4000)) = true := by decide +kernel

theorem test_syc :
    goes (step (lab ⟨1, 2, 3, 4⟩ false 0o1000 [(0o1000, 0o127510), (0o40, 0o477), (0o41, 0o450), (0o42, 0o577), (2,
        0o600)]))
      (fun t => decide (t.wordAt 0o504 = 0o1001) && decide (t.pc = 0o600) &&
        decide (t.ionHold = .last)) = true := by decide +kernel

theorem test_nios_tti :
    goes (step (lab ⟨0, 0, 0, 0⟩ false 0o1000 [(0o1000, 0o60110)]))
      (fun t => t.tti.busy) = true := by decide +kernel

theorem test_diac_tti :
    goes (step { lab ⟨0, 0, 0, 0⟩ false 0o1000 [(0o1000, 0o64610)] with
        tti := ⟨false, true, false, false, false, false, 0o101⟩ })
      (fun t => decide (t.ac.q1 = 0o101) && !t.tti.done) = true := by decide +kernel

theorem test_doas_tto :
    goes (step (lab ⟨0o101, 0, 0, 0⟩ false 0o1000 [(0o1000, 0o61111)]))
      (fun t => t.tto.busy && decide (t.outputs = [.ttoChar 0o101])) = true := by decide +kernel

theorem test_skpdn_tto :
    goes (step { lab ⟨0, 0, 0, 0⟩ false 0o1000 [(0o1000, 0o63611)] with tto := ⟨false, true, 0⟩ })
      (fun t => decide (t.pc = 0o1002)) = true := by decide +kernel

theorem test_inta :
    goes (step { lab ⟨0, 0, 0, 0⟩ false 0o1000 [(0o1000, 0o65477)] with
        tti := ⟨false, true, false, false, false, false, 0⟩, tto := ⟨false, true, 0⟩ })
      (fun t => decide (t.ac.q1 = 0o177710)) = true := by decide +kernel

theorem test_msko :
    goes (step (lab ⟨3, 0, 0, 0⟩ false 0o1000 [(0o1000, 0o62077)]))
      (fun t => decide (t.mask = 3)) = true := by decide +kernel

theorem test_iorst :
    goes (step { lab ⟨0, 0, 0, 0⟩ false 0o1000 [(0o1000, 0o62677)] with
        ion := true, mask := 3, p31 := 0o105, tti := ⟨false, true, false, false, false, false, 0⟩ })
      (fun t => !t.ion && decide (t.mask = 0) && !t.tti.done && decide (t.p31 = 0o37)) = true := by decide +kernel

theorem test_reads :
    goes (step { lab ⟨0, 0, 0, 0⟩ false 0o1000 [(0o1000, 0o60477)] with vcr := 0o100033 })
      (fun t => decide (t.ac.q0 = 0o100033)) = true := by decide +kernel

theorem test_halt :
    goes (step (lab ⟨0, 0, 0, 0⟩ false 0o1000 [(0o1000, 0o63077)]))
      (fun t => decide (t.runState = .halted) && decide (t.pc = 0o1001)) = true := by decide +kernel

theorem test_inten_holds :
    goes (step (lab ⟨0, 0, 0, 0⟩ false 0o1000 [(0o1000, 0o60177)]))
      (fun t => t.ion && decide (t.ionHold = .held)) = true := by decide +kernel

theorem test_interrupt_entry_indirect :
    goes (step { lab ⟨0, 0, 0, 0⟩ false 0o1000 [(1, 0o100400), (0o400, 0o2000)] with
        ion := true, tti := ⟨false, true, false, false, false, false, 0⟩ })
      (fun t => decide (t.wordAt 0 = 0o1000) && !t.ion && decide (t.pc = 0o2000)) = true := by decide +kernel

theorem test_vct_mode_a :
    goes (step { lab ⟨0, 0, 0, 0⟩ false 0o1000 [(0o1000, 0o61777), (0o1001, 0o1500), (0o1510, 0o2000)] with
        tti := ⟨false, true, false, false, false, false, 0⟩ })
      (fun t => decide (t.pc = 0o2000)) = true := by decide +kernel

theorem test_undefined_unmapped :
    goes (step (lab ⟨0, 0, 0, 0⟩ false 0o1000 [(0o1000, 0o103310)]))
      (fun t => decide (t.pc = 0o1001)) = true := by decide +kernel

/-- The same machine in user mode, through a user map A with page 0 at 5, page 1 at 6 protected, all other pages
invalid, and the fault handler of location 3 at 3400. -/
def labMapped (ac : Quad Word) (pc : Addr) (words : List (Addr × Word)) : State :=
  let s := lab ac false 0 [(3, 0o3400), (0o40, 0o477), (0o42, 0o577)]
  let m := (PageMap.setEntry (PageMap.setEntry (Vector.replicate 32 ⟨true, 0o1777⟩) 0 ⟨false, 5⟩) 1 ⟨true, 6⟩)
  { s with
    pc := pc, mapOn := true, umap := Quad.all m
    mem := words.foldl (fun m p => Memory.writeWord m (p.1.toNat + 5 * 1024) p.2) s.mem }

theorem test_mapped_read :
    goes (step (labMapped ⟨0, 0, 0, 0⟩ 0o100 [(0o100, 0o20120), (0o120, 0o123)]))
      (fun t => decide (t.ac.q0 = 0o123) && t.mapOn) = true := by decide +kernel

/-- A piece of an instruction that stops for a MAP protection fault, nothing having changed. -/
def faults (s : State) (k : MapFaultKind) (m : M Unit) : Bool :=
  match m s with
  | .error e t => decide (e = .mapFault k) && decide (t = s)
  | .ok _ _ => false

theorem test_validity_fault :
    faults (labMapped ⟨9, 0, 0, 0⟩ 0o100 []) .validity (do
      let v ← memRead 0o10000
      setAc 0 v) = true := by decide +kernel

theorem test_write_fault :
    faults { labMapped ⟨9, 0, 0, 0⟩ 0o100 [] with ms := { State.reset.ms with wpe := true } } .write
      (memWrite 0o2000 9) = true := by decide +kernel

theorem test_write_unprotected :
    faults (labMapped ⟨9, 0, 0, 0⟩ 0o100 []) .write (memWrite 0o2000 9) = false := by decide +kernel

theorem test_io_fault :
    faults { labMapped ⟨9, 0, 0, 0⟩ 0o100 [] with ms := { State.reset.ms with iop := true } } .io ioProtect = true := by
  decide +kernel

theorem test_lef_mode :
    goes (step { labMapped ⟨0, 0, 0, 0⟩ 0o100 [(0o100, 0o60110)] with ms := { (State.reset).ms with lef := true } })
      (fun t => decide (t.ac.q0 = 0o110) && !t.tti.busy) = true := by decide +kernel

theorem test_emulator_trap :
    goes (step (labMapped ⟨1, 2, 3, 4⟩ 0o100 [(0o100, 0o103310), (0o11, 0o200), (0o40, 0o300), (0o42, 0o400)]))
      (fun t => t.mapOn && decide (t.pc = 0o200) &&
        decide (Memory.readWord t.mem (5 * 1024 + 197) = 0o101)) = true := by decide +kernel

theorem test_page_check :
    goes (step { lab ⟨0, 0, 0, 0⟩ false 0o1000 [(0o1000, 0o66403)] with
        pchk := 3, umap := Quad.all (PageMap.setEntry State.clearMap 3 ⟨true, 6⟩) })
      (fun t => decide (t.ac.q1 = 0o100006)) = true := by decide +kernel

theorem test_lmp_word :
    goes (step (lab ⟨0, 1, 0o2000, 0⟩ false 0o1000 [(0o1000, 0o113410), (0o2000, 0o106006)]))
      (fun t => decide (PageMap.entry t.umap.q0 3 = ⟨true, 6⟩) && decide (t.ac.q1 = 0) &&
        decide (t.ac.q2 = 0o2001) && decide (t.pc = 0o1001)) = true := by decide +kernel

theorem test_doa_map_waits :
    goes (step (lab ⟨0, 3, 0, 0⟩ false 0o1000 [(0o1000, 0o65003)]))
      (fun t => !t.mapOn && t.mapPending && t.ms.dch) = true := by decide +kernel

theorem test_jmp_completes_enable :
    goes (step { lab ⟨0, 0, 0, 0⟩ false 0o1000 [(0o1000, 0o2000), (0, 5)] with mapPending := true })
      (fun t => t.mapOn && !t.mapPending && decide (t.pc = 5)) = true := by decide +kernel

/-! ## A state and operands for the hypotheses of each statement -/

/-- A stack at 477 with limit 577, handlers in locations 2, 3, 43 and 45, and a pointer at 20. -/
def base : List (Addr × Word) :=
  [(2, 0o600), (3, 0o3400), (0o20, 0o1234), (0o40, 0o477), (0o41, 0o450), (0o42, 0o577), (0o43, 0o3000), (0o44, 0o2000),
    (0o45, 0o3400)]

/-- The machine most statements are met by. -/
def w : State := lab ⟨0, 1, 0o500, 0o600⟩ false 0o1000 base

/-- The same with a full stack. -/
def wFull : State := lab ⟨0, 1, 0o500, 0o600⟩ false 0o1000 (base ++ [(0o42, 0o477)])

theorem supervisor_w : Supervisor w := by unfold Supervisor Quiet; decide +kernel
theorem supervisor_wFull : Supervisor wFull := by unfold Supervisor Quiet; decide +kernel

theorem witness_DecodeOfEncode :
    Instr.wf (.save 2) = true ∧ Instr.selectedIn false (.save 2) = true ∧
    Instr.wf (.lef 1 ⟨true, .pc, 0o377⟩) = true ∧ Instr.selectedIn true (.lef 1 ⟨true, .pc, 0o377⟩) = true := by
  decide +kernel

theorem witness_StepKeepsInvariant : Sound w ∧ goes (step w) (fun _ => true) = true := by
  unfold Sound
  decide +kernel

theorem witness_PowerUpEntersConsole :
    State.reset.runState = .halted ∧ State.reset.con.pup = true ∧ State.reset.inputs = [] ∧
      State.reset.testErrors = [] ∧ (State.reset.cfg.locked = false ∨ State.reset.cfg.aplCode = 0) := by decide +kernel

/-- A locked machine after power-up with an automatic load device, and the errors of its self-test. -/
def lockedAtPowerUp (errs : List SelfTestError) : State :=
  { State.reset with cfg := { State.reset.cfg with locked := true, aplCode := 0o33 }, testErrors := errs }

theorem witness_PowerUpEntersConsole_locked :
    (lockedAtPowerUp []).runState = .halted ∧ (lockedAtPowerUp []).con.pup = true ∧ (lockedAtPowerUp []).inputs = [] ∧
      (lockedAtPowerUp []).testErrors = [] ∧ (lockedAtPowerUp []).cfg.locked = true ∧
      (lockedAtPowerUp []).cfg.aplCode ≠ 0 ∧ (lockedAtPowerUp []).cfg.aplCode ≠ devCpu ∧
      (lockedAtPowerUp [.userMemory]).testErrors = [.userMemory] := by decide +kernel

theorem witness_PowerUpEntersConsole_break :
    ∃ s : State, s.runState = .testError [] ∧ s.inputs = [.breakKey] :=
  ⟨{ lockedAtPowerUp [] with runState := .testError [], inputs := [.breakKey] }, rfl, rfl⟩

theorem witness_StepRunsDecoded :
    w.runState = .running ∧ w.xct = none ∧ w.inputs = [] ∧ w.con.trp = false ∧ interruptDue w = false ∧
      decode false (bytesOf [w.wordAt w.pc, w.wordAt (w.pc + 1)]) = .ok (.jmp ⟨false, .abs, 0⟩, [0, 0]) :=
  ⟨rfl, rfl, rfl, rfl, by decide +kernel, by rfl⟩

/-- User mode: the identity map, page 31 protected. -/
def u : State :=
  { w with
    mapOn := true
    umap := Quad.all (PageMap.setEntry (Vector.ofFn fun k : Fin 32 => ⟨false, BitVec.ofNat 10 k.val⟩) 31 ⟨true, 0o1777⟩) }

/-- User mode with every page in its place. -/
def uAll : State :=
  { w with mapOn := true, umap := Quad.all (Vector.ofFn fun k : Fin 32 => ⟨false, BitVec.ofNat 10 k.val⟩) }

/-- User mode in which page 1 is write protected. -/
def uProtected : State :=
  { u with
    ms := { u.ms with wpe := true }
    umap := Quad.all (PageMap.setEntry (u.umap.get 0) 1 ⟨true, 1⟩) }

theorem witness_StepRunsDecodedMapped :
    u.runState = .running ∧ u.xct = none ∧ u.inputs = [] ∧ u.con.trp = false ∧ interruptDue u = false ∧
      Quiet u ∧ ioProtected u = false ∧ u.mapped u.pc = true ∧ u.mapped (u.pc + 1) = true ∧ (Instr.words (.jmp ⟨false, .abs, 0⟩)) = 1 ∧
      decode (lefMode u) (bytesOf [u.mappedWord u.pc, u.mappedWord (u.pc + 1)]) = .ok (.jmp ⟨false, .abs, 0⟩, [0, 0]) :=
  ⟨rfl, rfl, rfl, rfl, by decide +kernel, ⟨rfl, rfl⟩, rfl, by decide +kernel, by decide +kernel, by decide +kernel, by rfl⟩

/-- An unmapped machine whose page 31 is at physical page 8, and at the last page, beyond two boards. -/
def wPage (p : BitVec 10) : State := { w with p31 := p, cfg := { w.cfg with boards := .two } }

/-- Unmapped references to page 31, inside memory and beyond it, and below it. -/
theorem witness_Loads_page31 :
    ((wPage 8).mapOn = false ∧ (wPage 8).scPending = false ∧ (wPage 8).memFaults = [] ∧ (wPage 8).dchDue = []) ∧
    (extIa (wPage 8) ⟨false, .abs, 0o76000⟩).toNat / 1024 = 31 ∧ (extIa (wPage 8) ⟨false, .abs,
        0o75777⟩).toNat / 1024 ≠ 31 ∧
    (shortIa { wPage 8 with pc := 0o76000 } ⟨false, .pc, 0⟩).toNat / 1024 = 31 ∧
    8 * 1024 + 0 < (wPage 8).cfg.boards.words ∧ (wPage 0o1777).cfg.boards.words ≤ 1023 * 1024 + 0 := by decide +kernel

/-- Leading bits at both ends of the range and between. -/
theorem witness_LeadingBits :
    (∀ k, k < 0 → (w.ac.get 0).getMsbD k = false) ∧ (0x8000 : Word).getMsbD 0 = true ∧
    (∀ k, k < 16 → (0 : Word).getMsbD k = false) ∧
    (∀ k, k < 15 → (w.ac.get 1).getMsbD k = false) ∧ (w.ac.get 1).getMsbD 15 = true := by
  refine ⟨fun k h => absurd h (by omega), by decide +kernel, ?_, ?_, by decide +kernel⟩ <;> decide +kernel

/-- DIV at the boundary: the dividend's high half equal to the divisor, and one less. -/
theorem witness_MultiplyDivide :
    (5 : Word).toNat ≤ (lab ⟨5, 0, 5, 0⟩ false 0 []).ac.q0.toNat ∧ (4 : Word).toNat < (5 : Word).toNat := by
  decide +kernel

/-- Quotients 32767 and -32768 fit, 32768 and a zero divisor do not. -/
theorem witness_SignedDivide :
    (lab ⟨0, 0o77777, 1, 0⟩ false 0 []).pair 0 = 32767 ∧ ((0x8000 : Word).toInt.tdiv 1 = -32768) ∧
    ((lab ⟨0, 0x8000, 1, 0⟩ false 0 []).pair 0).toInt.tdiv 1 = 32768 ∧
    ¬ ((0 : Word).toInt ≠ 0) := by decide +kernel

theorem witness_DecimalResults :
    (0o11 : Word).toNat % 16 ≤ 9 ∧ 9 < (0o12 : Word).toNat % 16 := by decide +kernel

/-- Direct and indirect addresses; for LEF a user mode with LEF mode on, and a chain through its map. -/
theorem witness_Loads :
    w.shortAt ⟨true, .abs, 0o20⟩ = some 0o1234 ∧ w.shortAt ⟨false, .abs, 0o377⟩ = some 0o377 ∧
    w.extAt ⟨true, .abs, 0o20⟩ = some 0o1234 ∧ w.extAt ⟨false, .abs, 0o77777⟩ = some 0o77777 ∧
    (let s : State := { u with ms := { u.ms with lef := true } };
      s.mapOn = true ∧ s.ms.lef = true ∧ s.mapPending = false ∧ s.memFaults = [] ∧ s.dchDue = [] ∧
        s.mappedAt true (shortIa s ⟨true, .abs, 0o20⟩) = some 0o1234) := by decide +kernel

theorem witness_Stores : w.shortAt ⟨false, .pc, 0⟩ = some 0o1000 ∧ w.extAt ⟨false, .pc, 0⟩ = some 0o1001 := by
  decide +kernel

/-- Counts of 0, of 1, of 2 and with bit 0 set; direct addresses in AC2 and AC3. -/
theorem witness_BlockMoves :
    (w.ac.get 1 ≠ 0 ∧ (w.ac.get 1).msb = false ∧ w.wordTarget (w.ac.get 2) = some 0o500 ∧
      w.wordTarget (w.ac.get 3) = some 0o600) ∧
    (w.ac.get 0 = 0) ∧ (2 : Word) ≠ 1 ∧ (0x8000 : Word).msb = true := by decide +kernel

/-- No byte left, the last one, and another. -/
theorem witness_CmvResults : w.ac.get 0 = 0 ∧ decLen 1 = 0 ∧ decLen 0o177777 = 0 ∧ decLen 2 ≠ 0 := by decide +kernel

/-- Both strings ended; the last equal pair; unequal bytes. -/
theorem witness_CmpResults :
    (w.ac.get 0 = 0 ∧ ¬ (w.ac.get 0 = 0 ∧ w.ac.get 1 = 0) ∧ (0o40 : BitVec 8) ≠ w.byteAt (w.ac.get 3)) ∧
    (lab ⟨1, 1, 0o1000, 0o1000⟩ false 0 []).byteAt 0o1000 = 0 := by decide +kernel

theorem witness_CmtResults :
    w.wordTarget (w.ac.get 0) = some 0 ∧
    bitOf (w.wordAt (0 + BitVec.ofNat 15 ((w.byteAt (w.ac.get 3)).toNat / 16))) ((w.byteAt (w.ac.get 3)).setWidth 4) = false ∧
    bitOf ((lab ⟨0, 1, 0, 0o600⟩ false 0o1000 [(0, 0x8000)]).wordAt 0) 0 = true ∧ decLen (w.ac.get 1) = 0 ∧
    decLen 2 ≠ 0 := by decide +kernel

/-- Translate and move, an exhausted count, an equal pair, an unequal pair. -/
theorem witness_CtrResults :
    w.wordTarget (w.ac.get 0) = some 0 ∧ (0o177777 : Word).msb = true ∧ (0o177777 : Word) + 1 = 0 ∧
    ((w.ac.get 1).msb = false ∧ w.ac.get 1 ≠ 0 ∧ w.byteAt (w.wordAt 0 + 0) = w.byteAt (w.wordAt 0 + 0)) ∧
    (lab ⟨0, 1, 0o100, 0o102⟩ false 0 [(0, 0o200), (0o40, 0), (0o100, 0o400)]).byteAt 0o200 ≠
      (lab ⟨0, 1, 0o100, 0o102⟩ false 0 [(0, 0o200), (0o40, 0), (0o100, 0o400)]).byteAt 0o201 := by decide +kernel

theorem witness_BitResults :
    w.bitPlace 0 1 = some 0 ∧ w.bitPlace 2 2 = some 0o24 ∧ bitNumber (w.ac.get 1) = 1 := by decide +kernel

theorem witness_FloatLoads : w.extAt ⟨false, .abs, 0o500⟩ = some 0o500 := by decide +kernel

theorem witness_FloatStores : w.extAt ⟨false, .ac2, 0⟩ = some 0o500 ∧ w.extAt ⟨false, .abs, 0o77777⟩ = some 0o77777 := by
  decide +kernel

/-- The boundary of FFAS is 32767: 32767.0 and 32768.0. -/
theorem witness_FloatFixes :
    isNorm .double (floatInt .double 32767) = true ∧ intPart (floatInt .double 32767) = 32767 ∧
    isNorm .double (floatInt .double 32768) = true ∧ 32767 < intPart (floatInt .double 32768) := by decide +kernel

/-- The ends of a checking instruction: no error with trap enable, an error that traps, and a trap that overflows the stack. -/
theorem witness_FloatEnds :
    (Fpsr.any w.fpsr && w.fpsr.te) = false ∧
    (Fpsr.any ({ w.fpsr with ovf := true, te := true }) && ({ w.fpsr with ovf := true, te := true } : Fpsr).te) = true ∧
    (w.trapOff.withBlock (w.pc + BitVec.ofNat 15 1)).pointerEnd 0o45 = some 0o3400 ∧
    (w.trapOff.withBlock (w.pc + BitVec.ofNat 15 1)).overflows = false ∧
    (let b := wFull.trapOff.withBlock (wFull.pc + BitVec.ofNat 15 1);
      b.pointerEnd 0o45 = some 0o3400 ∧ b.overflows = true ∧ (b.stackFaulted 0o3400).pointerEnd sfaLoc = some 0o3000) := by
  decide +kernel

/-- Integers at the ends of the range; an intermediate mantissa of one digit too few, and the exponents at both ends; a product
and a quotient without an exponent error. -/
theorem witness_FloatValues :
    (16 ^ 6 - 1 : Int).natAbs < 16 ^ Prec.single.digits ∧
    (16 ^ Prec.single.digits ≤ 16 ^ 5 * 16 ^ 1 ∧ 16 ^ 5 * 16 ^ 1 < 16 ^ (Prec.single.digits + 1)) ∧
    (-128 ≤ (-127 : Int) - (1 : Nat) ∧ (256 : Int) - (1 : Nat) ≤ 255) ∧
    isNorm .double (fp 0o40420 0 0 0) = true ∧ (unpack .double (fp 0o40420 0 0 0)).mant ≠ 0 ∧
    (fpMul .double (fp 0o40420 0 0 0) (fp 0o40420 0 0 0)).ovf = false ∧
    (fpMul .double (fp 0o40420 0 0 0) (fp 0o40420 0 0 0)).unf = false ∧
    (fpDiv .double (fp 0o40420 0 0 0) (fp 0o40420 0 0 0)).ovf = false ∧
    (fpDiv .double (fp 0o40420 0 0 0) (fp 0o40420 0 0 0)).unf = false := by decide +kernel

theorem witness_FloatArithmetic :
    isNorm .single (w.fpac.get 0) = true ∧ isNorm .double (w.fpac.get 1) = true ∧
    w.extAt ⟨false, .abs, 0o500⟩ = some 0o500 ∧ isNorm .single (w.floatAt .single 0o500) = true ∧
    isNorm .double (w.floatAt .double 0o500) = true ∧ isNorm .double (fp 0o40420 0 0 0) = true := by decide +kernel

/-- A divisor of zero and one that is not; mantissas in both orders. -/
theorem witness_FloatWithStorage :
    mantZero .double (w.fpac.get 0) = true ∧ isNorm .double (w.fpac.get 0) = true ∧
    mantZero .single (fp 0o40420 0 0 0) = false ∧ isNorm .single (fp 0o40420 0 0 0) = true ∧
    ((unpack .single (fp 0o40420 0 0 0)).mant ≠ 0 ∧
      (unpack .single (fp 0o40420 0 0 0)).mant < (unpack .single (fp 0o40440 0 0 0)).mant) ∧
    w.extAt ⟨false, .abs, 0o500⟩ = some 0o500 := by decide +kernel

theorem witness_FloatUnnormalised :
    w.fpsr.te = false ∧ isNorm .single (fp 0o40001 0 0 0) = false ∧ isNorm .double (fp 0o40001 0 0 0) = false := by
  decide +kernel

/-- Scaling to the number's own exponent, to a lower and to a higher one, and to nothing; numbers below one and above. -/
theorem witness_FloatUnary :
    isNorm .double (w.fpac.get 0) = true ∧ w.fpac.get 0 = 0 ∧
    (let x := fp 0o40454 0 0 0;
      isNorm .double x = true ∧ x ≠ 0 ∧ (unpack .double x).expo = 65 ∧ intPart x ≠ 0 ∧
        (unpack .double x).mant / 16 ^ (66 - 65) ≠ 0 ∧ (unpack .double x).mant / 16 ^ (79 - 65) = 0 ∧
        (unpack .double x).mant * 16 ^ (65 - 64) % 16 ^ 14 ≠ 0 ∧
        intPart (fp 0o40000 0 0 0) = 0) := by decide +kernel

theorem witness_FloatStatus : isNorm .double (w.fpac.get 0) = true ∧ w.extAt ⟨false, .abs, 0⟩ = some 0 := by
  decide +kernel

theorem witness_FloatStack :
    ((w.storedAbove ((w.wordAt spLoc).setWidth 15) (fpBlock w)).withWord spLoc (w.wordAt spLoc + 18)).overflows = false := by
  decide +kernel

theorem witness_PushPop : (w.pushedAll [w.ac.get 3, w.ac.get 0]).overflows = false := by decide +kernel

theorem witness_ReturnRestores : spLoc ∉ w.stackRoom 5 := by decide +kernel

theorem witness_StackReturns :
    (w.pushed (joinWord false (w.pc + 2))).overflows = false ∧ w.extAt ⟨false, .abs, 0o2000⟩ = some 0o2000 := by
  decide +kernel

/-- MSP to the limit itself. -/
theorem witness_SaveMsp :
    (((w.pushedAll [w.ac.get 0, w.ac.get 1, w.ac.get 2]).pushed 0o450).pushed 0o600).overflows = false ∧
    (w.wordAt spLoc + 0o100).toNat = (w.wordAt slLoc).toNat := by decide +kernel

theorem witness_StackFaultTaken :
    ((wFull.pushedAll [wFull.ac.get 0]).overflows = true ∧
      ((wFull.pushedAll [wFull.ac.get 0]).stackFaulted (wFull.pc + 1)).pointerEnd sfaLoc = some 0o3000) ∧
    ((wFull.pushed (joinWord false (wFull.pc + 2))).overflows = true ∧
      ((wFull.pushed (joinWord false (wFull.pc + 2))).stackFaulted 0o2000).pointerEnd sfaLoc = some 0o3000) ∧
    wFull.extAt ⟨false, .abs, 0o2000⟩ = some 0o2000 ∧
    ((wFull.wordAt slLoc).toNat < (wFull.wordAt spLoc + wFull.ac.get 1).toNat ∧
      (wFull.stackFaulted wFull.pc).pointerEnd sfaLoc = some 0o3000) := by decide +kernel

theorem witness_StackFaultTaken_blocks :
    (let f := (wFull.storedAbove ((wFull.wordAt spLoc).setWidth 15) (fpBlock wFull)).withWord spLoc
        (wFull.wordAt spLoc + 18);
      f.overflows = true ∧ (f.stackFaulted (wFull.pc + 1)).pointerEnd sfaLoc = some 0o3000) ∧
    (let three := wFull.pushedAll [wFull.ac.get 0, wFull.ac.get 1, wFull.ac.get 2];
      let save := (three.pushed (three.wordAt fpLoc &&& 0o077777)).pushed
        (joinWord wFull.cry ((wFull.ac.get 3).setWidth 15));
      save.overflows = true ∧
        ((save.withWord spLoc (wFull.wordAt spLoc)).stackFaulted wFull.pc).pointerEnd sfaLoc = some 0o3000) := by
  decide +kernel

theorem witness_Jumps : w.shortAt ⟨false, .pc, 0o377⟩ = some 0o777 ∧ w.extAt ⟨false, .pc, 4⟩ = some 0o1005 := by
  decide +kernel

theorem witness_CountSkips : w.shortAt ⟨false, .abs, 0o50⟩ = some 0o50 ∧ w.extAt ⟨false, .abs, 0o2000⟩ = some 0o2000 := by
  decide +kernel

/-- DSPA: a number between limits of zero, one outside them, and the word that ends it. -/
theorem witness_Comparisons :
    w.extAt ⟨false, .abs, 0o500⟩ = some 0o500 ∧ (w.ac.get 0).toInt = 0 ∧ (w.wordAt 0o476).toInt = 0 ∧
    (w.wordAt 0o477).toInt = 0 ∧ w.wordAt (0o500 + (w.ac.get 0 - w.wordAt 0o476).setWidth 15) ≠ 0o177777 ∧
    w.wordTarget (w.wordAt 0o500) = some 0 ∧ (w.wordAt 0o477).toInt < (w.ac.get 1).toInt ∧
    (lab ⟨0, 0, 0, 0⟩ false 0 [(0o500, 0o177777)]).wordAt 0o500 = 0o177777 := by decide +kernel

/-- XCT of INC, of BAM, of XCT, of BLM with one word and with two, and of LMP. -/
theorem witness_XctResult :
    decode false (bytesOf [0o101400, 0]) = .ok (.inc ⟨0, 0, .none, .current, false, .never⟩, [0, 0]) ∧
    decode false (bytesOf [0o113710, 0]) = .ok (.bam, [0, 0]) ∧
    decode false (bytesOf [0o133370, 0]) = .ok (.xct 2, [0, 0]) ∧
    decode false (bytesOf [0o133710, 0]) = .ok (.blm, [0, 0]) ∧
    decode false (bytesOf [0o113410, 0]) = .ok (.lmp, [0, 0]) ∧
    (w.xct = none ∧ w.runState = .running ∧ w.inputs = [] ∧ w.con.trp = false ∧ interruptDue w = false) ∧
    (goes (exec .blm w) (fun t => decide (t.pc ≠ w.pc)) && goes (exec .lmp w) (fun t => decide (t.pc ≠ w.pc))) = true ∧
    goes (exec .blm (lab ⟨0, 2, 0o500, 0o133710⟩ false 0o1000 [])) (fun t => decide (t.pc = 0o1000)) = true ∧
    (lab ⟨0o101400, 0o113710, 0o133370, 0⟩ false 0o1000 []).ac.get 2 = 0o133370 :=
  ⟨by rfl, by rfl, by rfl, by rfl, by rfl, ⟨rfl, rfl, rfl, rfl, by decide +kernel⟩, by decide +kernel, by decide +kernel, rfl⟩

/-- With room on the stack and with none. -/
theorem witness_TrapCalls :
    (w.withBlock (w.pc + 1)).pointerEnd 2 = some 0o600 ∧ (w.withBlock (w.pc + 1)).overflows = false ∧
    w.pointerEnd 2 = some 0o600 ∧
    (let copies := ((w.withBlock (w.pc + 1)).withAc 2 0o501).withAc 3 0o500;
      copies.overflows = false ∧ copies.pointerEnd ((copies.wordAt 0o44).setWidth 15 + BitVec.ofNat 15 31) = some 0 ∧
        copies.pointerEnd ((copies.wordAt 0o44).setWidth 15 + BitVec.ofNat 15 47) = some 0) ∧
    (let called := wFull.withBlock (wFull.pc + 1);
      called.pointerEnd 2 = some 0o600 ∧ called.overflows = true ∧
        (called.stackFaulted 0o600).pointerEnd sfaLoc = some 0o3000) ∧
    (let copies := ((wFull.withBlock (wFull.pc + 1)).withAc 2 0o501).withAc 3 0o500;
      copies.pointerEnd ((copies.wordAt 0o44).setWidth 15 + BitVec.ofNat 15 31) = some 0 ∧ copies.overflows = true ∧
        (copies.stackFaulted 0).pointerEnd sfaLoc = some 0o3000) := by decide +kernel

/-- A machine with an external controller of code 20. -/
def wExt : State := { w with ext := [⟨0o20, .other (some 3), false, true, 1, 2, 3, 0, 0, 0, 0⟩] }

theorem witness_ExternalIo :
    ioProtected wExt = false ∧ isBoard 0o20 = false ∧ (0o20 : BitVec 6) ≠ devCpu ∧
    findExt wExt 0o20 = some ⟨0o20, .other (some 3), false, true, 1, 2, 3, 0, 0, 0, 0⟩ ∧
    isBoard 0o25 = false ∧ findExt wExt 0o25 = none := by decide +kernel

theorem witness_BoardDevices :
    (Instr.wf (.dia 1 .start devTto) = true ∧ Instr.wf (.dib 1 .start devTti) = true ∧ Instr.wf (.dic 1 .start devErcc) = true ∧
      Instr.wf (.doa 1 .start devTti) = true ∧ Instr.wf (.dob 1 .start devPit) = true ∧ Instr.wf (.doc 1 .start devApl) = true) ∧
    ioProtected w = false ∧ w.ercc.done = false ∧
    ({ w with ercc := { w.ercc with done := true } } : State).ercc.done = true := by decide +kernel

/-- The clock and the timer off, on and at the end; a bad word in installed memory and one outside it; the codes of single bits,
of two and of more, and writes that meet and miss the word before; a data channel map that
leads inside and one that leads outside; the modes of the checking memory; the hypotheses of the data channel's clauses. -/
theorem witness_DeviceEvents :
    (w.runState = .running ∧ w.rtc.busy = false ∧ w.pit.busy = false ∧
      (pitCommand .start { w.pit with icr := 0o177777 }).busy = true ∧
      (pitCommand .start { w.pit with icr := 0o177777 }).cnt = 0o177777 ∧ (pitCommand .start w.pit).cnt ≠ 0o177777 ∧
      (rtcCommand .start w.rtc).busy = true) ∧
    ((0o500 : BitVec 20).toNat < w.cfg.boards.words ∧ w.cfg.boards.words ≤ (0xFFFFF : BitVec 20).toNat) ∧
    (w.ms.dch = false ∧ (0o500 : Addr).toNat < w.cfg.boards.words ∧
      w.cfg.boards.words ≤ (⟨false, 0o1777⟩ : MapEntry).ppage.toNat * 1024 + (0o500 : Addr).toNat % 1024) ∧
    (shortIa w ⟨false, .abs, 0o50⟩).toNat = (0o50 : BitVec 20).toNat ∧
    ((0 : BitVec 3) ∉ [1, 5] ∧ (5 : BitVec 3) ∈ [1, 5] ∧ w.ac.get 0 ≠ w.ac.get 1) ∧
    ((4 : BitVec 3).getLsbD 2 = true ∧ (3 : BitVec 3).getLsbD 1 = true ∧ (3 : BitVec 3).getLsbD 2 = false ∧
      (1 : BitVec 3).getLsbD 1 = false) ∧
    w.bitPlace 2 2 = some (shortIa w ⟨false, .abs, 0o24⟩) ∧ w.bitPlace 0 1 = some (shortIa w ⟨false, .abs, 0⟩) ∧
    (w.ac.get 0).msb = false ∧
    (dataCodes.getD 15 0 ∉ checkCodes ∧ (0o3 : BitVec 6) ∉ 0 :: dataCodes ++ checkCodes ∧ (0o1 : BitVec 6) ∈ checkCodes) ∧
    (w.ac.get 0 ≠ w.wordAt 0o50 ^^^ (w.ac.get 0 ^^^ w.wordAt 0o50 ^^^ 1) ∧
      w.ac.get 0 = w.wordAt 0o50 ^^^ (w.ac.get 0 ^^^ w.wordAt 0o50)) ∧
    ({ w with ac := ⟨w.wordAt 0o50, 0, 0, 0⟩ } : State).ac.get 0 = w.wordAt 0o50 := by decide +kernel

/-- The error of data bit 8 has code 110001, that of check bit 5 code 000001 (46_io R557). -/
theorem test_faultCode :
    errorCode 0o200 0 0 = 0b110001 ∧ errorCode 0 1 0 = 0b000001 ∧ errorCode 0 0 5 = 0 := by decide

theorem witness_CpuDevice :
    ioProtected w = false ∧ ioProtected { u with ms := { u.ms with iop := true, lef := true } } = false ∧
    (w.ac.get 0).getLsbD 0 = false ∧ (w.ac.get 1).getLsbD 0 = true ∧ w.cfg.haltDispatch = false ∧
    ({ w with cfg := { w.cfg with haltDispatch := true } } : State).cfg.haltDispatch = true ∧
    ({ w with cfg := { w.cfg with boards := .three } } : State).cfg.boards = .three := by decide +kernel

/-- A request in the listed order, one outside it, none, and the power-fail facility. -/
theorem witness_AckCode :
    irq w = false ∧ irq wExt = true ∧
    ({ wExt with cfg := { wExt.cfg with intPriority := [0o10, 0o20] } } : State).cfg.intPriority = [0o10] ++ 0o20 :: [] ∧
    requesting wExt 0o10 = false ∧ requesting wExt 0o20 = true ∧ requesting { w with pf := true } 0 = true ∧
    (isBoard 0o20 = false ∧ isBoard 0o25 = false ∧ findExt wExt 0o25 = none ∧ (wExt.ext.map maskBit) = [some 3]) ∧
    maskBit ⟨0o23, .listed, false, true, 1, 2, 3, 0, 0, 0, 0⟩ = none := by
  decide +kernel

/-- The state at the end of VCT in modes B to E, before control goes to the handler. -/
def vctBlock (s : State) (change : Bool) (w0 w1 : Word) : State :=
  let newStack := (((s.withWord spLoc (s.wordAt 4)).withWord slLoc (s.wordAt 6)).withWord sfaLoc (s.wordAt 7)).pushedAll
    [s.wordAt spLoc, s.wordAt fpLoc, s.wordAt slLoc, s.wordAt sfaLoc]
  let s1 := if change then newStack else s
  let acs := s1.pushedAll [s.ac.get 0, s.ac.get 1, s.ac.get 2, s.ac.get 3]
  let s2 := if w0.msb then acs.pushed (joinWord s.cry ((acs.wordAt 0).setWidth 15)) else s1
  let m := s2.wordAt 5
  { (s2.pushed m).withWord 5 (m ||| w1) with
    mask := m ||| w1, ion := true, ionHold := if s.ion then s.ionHold else .held }

/-- A vector table at 1500 for no requesting device, its handler saving the accumulators; a second stack with limit `limit`. -/
def wVct (limit : Word) : State :=
  lab ⟨0, 1, 2, 3⟩ false 0o1000
    (base ++ [(4, 0o2400), (6, limit), (7, 0o3000), (0o1577, 0o102000), (0o2000, 0o103000), (0o2001, 7)])

/-- Mode A; modes with and without the stack change, with room on the stack; a stack change to a full stack. -/
theorem witness_VctResult :
    (w.wordAt (0o1500 + (ackCode w).setWidth 15)).msb = false ∧
    ((wVct 0o2500).wordAt (0o1500 + (ackCode (wVct 0o2500)).setWidth 15)).msb = true ∧
    (vctBlock (wVct 0o2500) false 0o103000 7).overflows = false ∧
    (vctBlock (wVct 0o2500) true 0o103000 7).overflows = false ∧
    (vctBlock (wVct 0o2500) true 0o3000 7).overflows = false ∧
    (vctBlock (wVct 0o2400) true 0o103000 7).overflows = true ∧
    ((vctBlock (wVct 0o2400) true 0o103000 7).stackFaulted 0o3000).pointerEnd sfaLoc = some 0o3000 := by decide +kernel

theorem witness_MapDevice : ioProtected u = false ∧ (IoFlag.start ≠ .pulse) := by decide +kernel

/-- No word, the last word at the top of memory, another word; AC0 of 0, of 3 and of neither. -/
theorem witness_LmpResult :
    w.wordTarget (w.ac.get 2) = some 0o500 ∧ w.ac.get 1 = 1 ∧ w.ac.get 0 = 0 ∧ (0o500 : Addr) ≠ 0o77777 ∧
    (lab ⟨3, 1, 0o77777, 0⟩ false 0 []).wordTarget 0o77777 = some 0o77777 ∧
    (lab ⟨5, 0, 0, 0⟩ false 0 []).ac.get 0 ≠ 0 ∧ (lab ⟨5, 0, 0, 0⟩ false 0 []).ac.get 0 ≠ 3 ∧
    (lab ⟨5, 0, 0, 0⟩ false 0 []).ac.get 1 = 0 := by decide +kernel

/-- Direct and indirect references in user mode; the single cycle with a valid page, an invalid one and a protected one, and
through a pointer. -/
theorem witness_MappedReferences :
    (u.memFaults = [] ∧ u.dchDue = [] ∧ u.mapOn = true ∧ u.scPending = false ∧ u.mapPending = false) ∧
    (u.mappedAt false 0o377 = some 0o377 ∧ u.mapped 0o377 = true ∧ writeProtected u (userEntry u 0o377) = false) ∧
    (u.mappedAt true 0o20 = some 0o1234 ∧ u.mapped 0o1234 = true ∧ writeProtected u (userEntry u 0o1234) = false) ∧
    (let s : State := { uProtected with mapOn := false, scPending := true };
      s.scPending = true ∧ s.mapOn = false ∧ s.mapPending = false ∧ s.p31 = Config.page31Reset ∧
        (userEntry s 0o377).invalid = false ∧ entryPhys (userEntry s 0o377) 0o377 < s.cfg.boards.words ∧
        writeProtected s (userEntry s 0o377) = false ∧ writeProtected s (userEntry s 0o2000) = true ∧
        (userEntry s 0o77777).invalid = true ∧ s.mappedWord 0o20 = 0o1234 ∧ 0 < Config.chainFuel) := by decide +kernel

/-- User mode with pointers to an invalid page, to itself and to a protected page, and a word of SAVE before page 31. -/
def uFaults : State :=
  { uProtected with
    ms := { uProtected.ms with indp := true }
    mem := [(0o21, 0o176000), (0o22, 0o100022), (0o23, 0o76000), (0o24, 0o2000), (0o75777, 0o163710)].foldl
      (fun m p => Memory.writeWord m p.1 p.2) u.mem }

/-- An invalid operand page, a protected one; an invalid first pointer and second pointer, a chain of sixteen pointers under
indirect protection, an invalid and a protected page at a chain's end; invalid pages at a fetch; I/O protection. -/
theorem witness_MapFaultsTaken :
    (uFaults.mapOn = true ∧ uFaults.mapPending = false ∧ uFaults.p31 = Config.page31Reset ∧ uFaults.scPending = false ∧
      uFaults.memFaults = [] ∧ uFaults.dchDue = []) ∧
    (userEntry uFaults 0o76000).invalid = true ∧
    ((userEntry uFaults 0o2000).invalid = false ∧ writeProtected uFaults (userEntry uFaults 0o2000) = true) ∧
    (uFaults.pointerMapped 0 0o76000 = some 0o76000 ∧ uFaults.pointerMapped 1 0o21 = some 0o76000) ∧
    (uFaults.ms.indp = true ∧ uFaults.pointerMapped 15 0o22 = some 0o22) ∧
    (uFaults.mappedAt true 0o23 = some 0o76000 ∧ uFaults.mappedAt true 0o24 = some 0o2000) ∧
    (uFaults.runState = .running ∧ uFaults.xct = none ∧ uFaults.inputs = [] ∧ uFaults.con.trp = false ∧
      interruptDue uFaults = false) ∧
    (let s : State := { uFaults with pc := 0o75777 };
      s.mapped s.pc = true ∧ wordsOf (lefMode s) (s.mappedWord s.pc) = 2 ∧ ioProtected s = false ∧
        (userEntry s (s.pc + 1)).invalid = true) ∧
    ioProtected { u with ms := { u.ms with iop := true } } = true ∧
    Instr.selectedIn false (.nio 0 .start 0o10) = true ∧ ioFormat (.nio 0 .start 0o10) = true ∧
    Instr.selectedIn false (.vct true 5) = true ∧ ioFormat (.vct true 5) = true := by decide +kernel

/-- The fault sequence's own hypotheses, for any program counter it pushes: the handler's pointer and the room it needs, or the
stack fault handler's pointer where there is none. -/
theorem witness_MapFaults :
    (w.withBlock 0).pointerEnd 3 = some 0o3400 ∧ (w.withBlock 0).overflows = false ∧
    (wFull.withBlock 0).pointerEnd 3 = some 0o3400 ∧ (wFull.withBlock 0).overflows = true ∧
    ((wFull.withBlock 0).stackFaulted 0o3400).pointerEnd sfaLoc = some 0o3000 := by decide +kernel

/-- Pointers of one level and of two, their further words and operands mapped and unprotected. -/
theorem witness_PendingEnable :
    (let s : State := { u with
        mapOn := false, mapPending := true, mem := Memory.writeWord (Memory.writeWord u.mem 0o25 0o100026) 0o26 0o1234 };
      (s.mapOn = false ∧ s.mapPending = true ∧ s.scPending = false ∧ s.p31 = Config.page31Reset ∧ s.memFaults = [] ∧
        s.dchDue = []) ∧
      (s.wordAt (shortIa s ⟨true, .abs, 0o20⟩)).msb = false ∧ s.wordAt 0o20 = 0o1234 ∧
      s.enabled.mapped 0o1234 = true ∧ writeProtected s.enabled (userEntry s.enabled 0o1234) = false ∧
      (s.wordAt (shortIa s ⟨true, .abs, 0o25⟩)).msb = true ∧ s.enabled.mapped 0o26 = true ∧
      (s.enabled.mappedWord 0o26).msb = false) := by decide +kernel

theorem witness_InterruptEntry :
    (let s : State := { w with ion := true, pf := true };
      let v := ({ s with ion := false, ms := { s.ms with um := s.mapOn }, mapOn := false, xct := none } : State).withWord 0
        (joinWord false s.pc);
      s.runState = .running ∧ s.inputs = [] ∧ interruptDue s = true ∧ s.p31 = Config.page31Reset ∧
        s.memFaults = [] ∧ s.dchDue = [] ∧ v.pointerEnd 1 = some 0) := by decide +kernel

/-- User mode with every page in its place, an undefined word at 1000, a handler in location 11 and a stack limit. -/
def wTrap (limit : Word) : State :=
  { lab ⟨1, 2, 3, 4⟩ true 0o1000 (base ++ [(0o1000, 0o103310), (0o11, 0o2000), (0o42, limit)]) with
    mapOn := true, umap := uAll.umap }

theorem identity_wTrap : IdentityMapped (wTrap 0o577) ∧ IdentityMapped (wTrap 0o477) := by
  unfold IdentityMapped Quiet
  decide +kernel

theorem witness_UndefinedWords :
    (let s := wTrap 0o577;
      let b := (countHold false s.referred).withBlock (s.pc + 1);
      s.runState = .running ∧ s.xct = none ∧ s.inputs = [] ∧ s.con.trp = false ∧ interruptDue s = false ∧
        decodeWords (lefMode s) (s.wordAt s.pc) 0 = none ∧
        s.wordAt 0o11 ≠ 0 ∧ b.pointerEnd 0o11 = some 0o2000 ∧ b.overflows = false) ∧
    (let b := (countHold false (wTrap 0o477).referred).withBlock ((wTrap 0o477).pc + 1);
      b.pointerEnd 0o11 = some 0o2000 ∧ b.overflows = true ∧ (b.stackFaulted 0o2000).pointerEnd sfaLoc = some 0o3000) ∧
    w.wordAt 0o11 = 0 := by
  decide +kernel

/-- A pointer to itself never ends. -/
theorem self_pointer (s : State) (h : s.wordAt 5 = 0o100005) : ∀ n, s.follow n 5 = none
  | 0 => rfl
  | n + 1 => by
    unfold State.follow
    rw [h]
    exact self_pointer s h n

/-- The machine whose location 5 points to itself. -/
def looped : State := lab ⟨0, 0, 0, 0⟩ false 0 [(5, 0o100005)]

theorem looped_word : looped.wordAt 5 = 0o100005 := by decide +kernel

theorem looped_end : looped.pointerEnd 5 = none := by
  unfold State.pointerEnd
  exact self_pointer looped looped_word Config.chainFuel

theorem witness_EndlessChains : looped.shortAt ⟨true, .abs, 5⟩ = none ∧ looped.pointerEnd 5 = none := by
  have ha : shortIa looped ⟨true, .abs, 5⟩ = 5 := rfl
  refine ⟨?_, looped_end⟩
  unfold State.shortAt State.resolved
  simpa only [ha, if_true] using looped_end

end Sys2Proof.Tests
end

section
/-!
SUPPORT and the proof of O7: how a step of a running processor comes down to `exec` of the instruction its two words decode
to. Only the fetch speaks of supervisor mode; the lemmas about the step and the decoder hold in every mode.
-/

namespace Sys2Proof.Laws

open Sys2Proof.Machine

/-! ## The step of a running processor -/

theorem afterStep_of_not_stepping {s : State} (h : s.con.trp = false) (r : Host.Outcome State Fault Refusal) :
    afterStep s r = r := by
  unfold afterStep
  cases r <;> simp [h]

/-- Outside single-step mode, with no input waiting and no interrupt due, a step is the next instruction (00_scope R15). -/
theorem step_eq_runNext {s : State} (hrun : s.runState = .running) (hin : s.inputs = []) (htrp : s.con.trp = false)
    (hint : interruptDue s = false) : step s = runNext s := by
  calc step s = cpuStep s := by unfold step machineStep; rw [hin]
    _ = runStep s := by unfold cpuStep; rw [hrun]
    _ = afterStep s (runNext s) := by unfold runStep; rw [hint]; rfl
    _ = runNext s := afterStep_of_not_stepping htrp _

/-- An instruction that no XCT took is executed as it stands. -/
theorem execHeld_none (i : Instr) (s : State) : execHeld none i s = exec i s := rfl

/-- Fetched words that decode to `i` run `i`, the hold counted down in the state the fetch left. -/
theorem runNext_of_fetch {s t : State} {ws : Word × Word} {i : Instr} (hx : s.xct = none)
    (hf : fetchWords s = .ok ws t) (hd : decodeWords (lefMode s) ws.1 ws.2 = some i) :
    runNext s = exec i (countHold (oneCycle i) t) := by
  unfold runNext
  simp only [hf, hd, hx, execHeld_none]

/-! ## The decoder on the bytes of two words -/

/-- The second word the instruction of `w` takes from the word `v` after it: `v` or, of a one-word instruction, nothing. -/
def operandWord (lef : Bool) (w v : Word) : Word := if wordsOf lef w = 2 then v else 0

/-- What the decoder reads from the bytes of two words is what the words themselves decode to (30_encoding R160). -/
theorem decodeWords_of_decode {lef : Bool} {w v : Word} {i : Instr} {rest : List (BitVec 8)}
    (h : decode lef (bytesOf [w, v]) = .ok (i, rest)) : decodeWords lef w (operandWord lef w v) = some i := by
  simp only [bytesOf, decode, wordOfBytes_halves] at h
  unfold operandWord
  by_cases htwo : wordsOf lef w = 2
  · rw [if_pos htwo] at h ⊢
    cases hd : decodeWords lef w v <;> simp_all
  · rw [if_neg htwo] at h ⊢
    cases hd : decodeWords lef w 0 <;> simp_all

/-! ## The fetch in supervisor mode -/

theorem supervisor_lefMode {s : State} (h : Supervisor s) : lefMode s = false := by
  unfold lefMode
  rw [h.1, Bool.false_and]

theorem supervisor_ioProtected {s : State} (h : Supervisor s) : ioProtected s = false := by
  unfold ioProtected
  rw [h.1, Bool.false_and, Bool.false_and]

theorem run_firstWord {s : State} (h : Supervisor s) (hx : s.xct = none) :
    firstWord s = .ok (s.wordAt s.pc) s := by
  unfold firstWord
  rw [run_bind, run_get]
  simp only [hx, run_memRead h]

theorem run_secondWord {s : State} (h : Supervisor s) (w : Word) :
    secondWord w s = .ok (operandWord false w (s.wordAt (s.pc + 1))) s := by
  unfold secondWord operandWord
  rw [run_bind, run_get]
  simp only [supervisor_lefMode h, supervisor_ioProtected h, Bool.false_and, Bool.not_false, Bool.and_true,
    decide_eq_true_eq]
  split
  · exact run_memRead h _
  · rfl

/-- In supervisor mode the fetch reads the words at the program counter and changes nothing (45_program_flow R461). -/
theorem run_fetchWords {s : State} (h : Supervisor s) (hx : s.xct = none) :
    fetchWords s = .ok (s.wordAt s.pc, operandWord false (s.wordAt s.pc) (s.wordAt (s.pc + 1))) s := by
  unfold fetchWords
  rw [run_bind_ok (run_firstWord h hx), run_bind_ok (run_secondWord h _), run_pure]

/-! ## The hold of interrupts -/

theorem countHold_of_none {s : State} (h : s.ionHold = .none) (one : Bool) : countHold one s = s := by
  unfold countHold
  rw [h, show holdAfter one .none = s.ionHold from h.symm]

theorem countHold_of_held {s : State} (h : s.ionHold = .held) (one : Bool) :
    countHold one s = { s with ionHold := if one then .last else .none } := by
  unfold countHold
  rw [h]
  rfl

theorem countHold_of_last {s : State} (h : s.ionHold = .last) (one : Bool) :
    countHold one s = { s with ionHold := .none } := by
  unfold countHold
  rw [h]
  rfl

/-- The one-cycle instructions are these and no others (46_io R522). -/
theorem oneCycle_iff (i : Instr) : oneCycle i = true ↔
    (∃ o : AlcOps, i ∈ [.adc o, .add o, .and o, .com o, .inc o, .mov o, .neg o, .sub o]) ∨
    (∃ (n : BitVec 2) (ac : AcNo), i = .adi n ac ∨ i = .sbi n ac) ∨
    ∃ acs acd : AcNo, i = .anc acs acd ∨ i = .sge acs acd ∨ i = .sgt acs acd := by
  constructor
  · intro h
    unfold oneCycle at h
    split at h <;> simp_all
  · rintro (⟨o, hi⟩ | ⟨n, ac, rfl | rfl⟩ | ⟨acs, acd, rfl | rfl | rfl⟩)
    · simp only [List.mem_cons, List.not_mem_nil, or_false] at hi
      rcases hi with rfl | rfl | rfl | rfl | rfl | rfl | rfl | rfl <;> rfl
    all_goals rfl

/-! ## The obligation -/

/-- Settles O7: the fetch in supervisor mode reads the two words the decoder's premise speaks of, so `step` runs what they
decode to; the hold and the list of one-cycle instructions are as their own lemmas say. -/
theorem stepRunsDecoded : Obligations.StepRunsDecoded := by
  unfold Obligations.StepRunsDecoded
  refine ⟨?_, fun one s => ⟨?_, ?_, ?_⟩, oneCycle_iff⟩
  · intro s i rest hrun hx hin htrp hint hs hdec
    have hwords : decodeWords (lefMode s) (s.wordAt s.pc) (operandWord false (s.wordAt s.pc) (s.wordAt (s.pc + 1))) =
        some i := by
      rw [supervisor_lefMode hs]
      exact decodeWords_of_decode hdec
    rw [step_eq_runNext hrun hin htrp hint]
    exact runNext_of_fetch hx (run_fetchWords hs hx) hwords
  · exact fun h => countHold_of_none h one
  · exact fun h => countHold_of_held h one
  · exact fun h => countHold_of_last h one

end Sys2Proof.Laws
end

section
/-!
SUPPORT and the proof of O3: the power-up values of 10_state R95, one lemma for each part of the machine. Only ERCC needs
an argument: its interrupts are off because its mode bits 14 and 15 are 0.
-/

namespace Sys2Proof.Laws

open Sys2Proof.Machine

/-! ## ERCC with mode bits 14 and 15 zero -/

/-- Mode bits 14 and 15 zero turn the checking of reads off (46_io R555). -/
theorem erccChecks_of_mode_zero {e : Ercc} (h : e.mode.extractLsb' 0 2 = 0) : erccChecks e = false := by
  calc erccChecks e = e.mode.getLsbD 1 := rfl
    _ = (e.mode.extractLsb' 0 2).getLsbD 1 := by simp
    _ = false := by rw [h]; rfl

/-- No ERCC interrupt is enabled where reads are not checked (46_io R555). -/
theorem erccEnabled_of_not_checks {e : Ercc} (h : erccChecks e = false) : erccEnabled e = false := by
  unfold erccEnabled
  rw [h, Bool.false_and]

/-! ## The power-up state, part by part -/

/-- Power-up clears ERCC mode bits 14 and 15 (10_state R95). -/
theorem reset_erccMode : State.reset.ercc.mode.extractLsb' 0 2 = 0 := rfl

theorem reset_interrupts : State.reset.ion = false ∧ State.reset.ionHold = .none ∧ State.reset.mask = 0 :=
  ⟨rfl, rfl, rfl⟩

theorem reset_processor :
    State.reset.con = ⟨false, true, false, false, false, false⟩ ∧ State.reset.pf = false ∧
    State.reset.runState = .halted :=
  ⟨rfl, rfl, rfl⟩

theorem reset_terminal :
    (State.reset.tti.busy, State.reset.tti.done, State.reset.tto.busy, State.reset.tto.done) =
      (false, false, false, false) :=
  rfl

theorem reset_timers : State.reset.rtc = ⟨false, false, 0⟩ ∧ State.reset.pit = ⟨false, false, 0, 0⟩ := ⟨rfl, rfl⟩

theorem reset_ercc : State.reset.ercc.done = false ∧ erccEnabled State.reset.ercc = false :=
  ⟨rfl, erccEnabled_of_not_checks (erccChecks_of_mode_zero reset_erccMode)⟩

theorem reset_mapStatus :
    State.reset.ms.nme = 0 ∧ State.reset.ms.lef = false ∧ State.reset.ms.iop = false ∧ State.reset.ms.wpe = false ∧
    State.reset.ms.indp = false ∧ State.reset.ms.dch = false ∧ State.reset.ms.ue = false ∧ State.reset.ms.um = false :=
  ⟨rfl, rfl, rfl, rfl, rfl, rfl, rfl, rfl⟩

theorem reset_mapControl :
    State.reset.mapOn = false ∧ State.reset.mapPending = false ∧ State.reset.scPending = false ∧ State.reset.p31 = 31 :=
  ⟨rfl, rfl, rfl, rfl⟩

/-! ## The obligation -/

/-- Settles O3: the parts of the power-up state put together in the order of the statement. -/
theorem resetValues : Obligations.ResetValues := by
  unfold Obligations.ResetValues
  obtain ⟨hion, hhold, hmask⟩ := reset_interrupts
  obtain ⟨hcon, hpf, hrun⟩ := reset_processor
  obtain ⟨hrtc, hpit⟩ := reset_timers
  obtain ⟨hdone, henabled⟩ := reset_ercc
  obtain ⟨hnme, hlef, hiop, hwpe, hindp, hdch, hue, hum⟩ := reset_mapStatus
  exact ⟨hion, hhold, hmask, hcon, hpf, hrun, reset_terminal, hrtc, hpit, hdone, henabled,
    hnme, hlef, hiop, hwpe, hindp, hdch, hue, hum, reset_mapControl⟩

end Sys2Proof.Laws
end

section
/-!
SUPPORT and the proof of O4: the invariant at power-up.
-/

namespace Sys2Proof.Laws

open Sys2Proof.Machine

/-- Settles O4: after power-up memory, its errors and the external bus are empty, the map is off, and XCT keeps no word. -/
theorem resetInvariant : Obligations.ResetInvariant := by
  unfold Obligations.ResetInvariant
  exact ⟨wf_reset, rfl, rfl, rfl, rfl, rfl⟩

end Sys2Proof.Laws
end

section
/-!
SUPPORT and the proof of O60: pointers that lead on for more reads than there are addresses repeat one, so that from there
on the chain goes round for ever.
-/

namespace Sys2Proof.Laws

open Sys2Proof.Machine

/-! ## Chains as iteration -/

/-- The address the word at `a` points to, whether or not it is indirect. -/
def pointedTo (s : State) (a : Addr) : Addr := (s.wordAt a).setWidth 15

/-- A chain has not ended after `n` words exactly where each of these is an indirect pointer. -/
theorem follow_eq_none_iff (s : State) (n : Nat) (a : Addr) :
    s.follow n a = none ↔ ∀ k < n, (s.wordAt ((pointedTo s)^[k] a)).msb = true := by
  induction n generalizing a with
  | zero => simp [State.follow]
  | succ n ih =>
    have hnext : (s.wordAt a).setWidth 15 = pointedTo s a := rfl
    have hsplit : (∀ k < n + 1, (s.wordAt ((pointedTo s)^[k] a)).msb = true) ↔
        (s.wordAt a).msb = true ∧ ∀ k < n, (s.wordAt ((pointedTo s)^[k] (pointedTo s a))).msb = true :=
      Nat.forall_lt_succ_left
    rw [hsplit, State.follow, hnext]
    by_cases hind : (s.wordAt a).msb = true
    · rw [if_pos hind, ih, and_iff_right hind]
    · rw [if_neg hind]
      simp [hind]

/-! ## A long chain repeats an address -/

/-- Among the first 32,769 places of an orbit of addresses two are the same. -/
theorem orbit_repeats (f : Addr → Addr) (a : Addr) : ∃ i j, i < j ∧ j ≤ 32768 ∧ f^[i] a = f^[j] a := by
  obtain ⟨i, j, hne, heq⟩ := Fintype.exists_ne_map_eq_of_card_lt
    (fun k : Fin 32769 => (f^[k] a).toFin) (by simp)
  have heq : f^[i] a = f^[j] a := BitVec.toFin_injective heq
  rcases Nat.lt_or_gt_of_ne (Fin.val_ne_of_ne hne) with hlt | hlt
  · exact ⟨i, j, hlt, by omega, heq⟩
  · exact ⟨j, i, hlt, by omega, heq.symm⟩

/-- Every place of an orbit is one of its first 32,768. -/
theorem orbit_within (f : Addr → Addr) (a : Addr) (n : Nat) : ∃ k < 32768, f^[k] a = f^[n] a := by
  obtain ⟨i, j, hij, hj, hrep⟩ := orbit_repeats f a
  induction n using Nat.strong_induction_on with
  | _ n ih =>
    by_cases hn : n < 32768
    · exact ⟨n, hn, rfl⟩
    · obtain ⟨k, hk, hback⟩ := ih (n - j + i) (by omega)
      refine ⟨k, hk, hback.trans ?_⟩
      calc f^[n - j + i] a = f^[n - j] (f^[j] a) := by rw [Function.iterate_add_apply, hrep]
        _ = f^[n] a := by rw [← Function.iterate_add_apply, Nat.sub_add_cancel (by omega)]

/-- A chain the model gives up on never ends (20_memory R115). -/
theorem follow_none_of_pointerEnd_none {s : State} {a : Addr} (h : s.pointerEnd a = none) (n : Nat) :
    s.follow n a = none := by
  have hall := (follow_eq_none_iff s _ a).mp h
  refine (follow_eq_none_iff s n a).mpr fun k _ => ?_
  obtain ⟨m, hm, hsame⟩ := orbit_within (pointedTo s) a k
  have hfuel : m < Config.chainFuel := Nat.lt_trans hm (by decide)
  rw [← hsame]
  exact hall m hfuel

/-! ## Instructions that meet an endless chain -/

/-- An effective address that is given up stops the model, however its pointers are read (20_memory R115). -/
theorem run_resolveBy_endless {s : State} (h : Supervisor s) {rd : Addr → M Word}
    (hr : ∀ a, rd a s = .ok (s.wordAt a) s) {ind : Bool} {ia : Addr} (he : s.resolved ind ia = none) :
    resolveBy rd ind ia s = .error (.fault .indirectionLoop) s := by
  cases ind
  case false => cases he
  case true =>
    have hend : s.follow Config.chainFuel ia = none := he
    unfold resolveBy
    rw [if_pos rfl, run_chain h hr, hend]

theorem run_shortEa_endless {s : State} (h : Supervisor s) {ea : ShortAddr} (he : s.shortAt ea = none) :
    shortEa ea s = .error (.fault .indirectionLoop) s := by
  unfold shortEa
  rw [run_bind_ok (run_get s)]
  exact run_resolveBy_endless h (run_memRead h) he

theorem run_shortEaData_endless {s : State} (h : Supervisor s) {ea : ShortAddr} (he : s.shortAt ea = none) :
    shortEaData ea s = .error (.fault .indirectionLoop) s := by
  unfold shortEaData
  rw [run_bind_ok (run_get s)]
  exact run_resolveBy_endless h (run_dataRead h) he

/-- An instruction whose first part stops the model stops there. -/
theorem runInstr_bind_fault {α : Type} {m : M α} {g : α → M Unit} {s t : State} {f : Fault}
    (h : m s = .error (.fault f) t) : runInstr (m >>= g) s = .fault f := by
  unfold runInstr
  rw [run_bind_error h]
  rfl

/-- Settles O60: the model reads more pointers than there are addresses, so that a chain it gives up on has come round; and
each of the four instructions resolves its address first. -/
theorem endlessChains : Obligations.EndlessChains := by
  unfold Obligations.EndlessChains
  refine ⟨fun _ _ => follow_none_of_pointerEnd_none, fun s ac ea h he => ?_⟩
  have hea := run_shortEa_endless h he
  have hdata := run_shortEaData_endless h he
  exact ⟨runInstr_bind_fault hea, runInstr_bind_fault hea, runInstr_bind_fault hdata, runInstr_bind_fault hdata⟩

end Sys2Proof.Laws
end

section
/-!
SUPPORT for the proof of O5: what the invariant says part by part, and the changes of a state that keep it.
-/

namespace Sys2Proof.Laws

open Sys2Proof.Machine

/-! ## The parts of the invariant -/

theorem memInstalled_iff {s : State} :
    memInstalled s = true ↔ ∀ c ∈ s.mem, c.1 < 2 * s.cfg.boards.words := by
  simp [memInstalled]

theorem faultsInstalled_iff {s : State} :
    faultsInstalled s = true ↔ ∀ f ∈ s.memFaults, f.addr.toNat < s.cfg.boards.words := by
  simp [faultsInstalled]

/-- A code an external controller may have: neither of the processor board nor 0 (46_io R500). -/
def extCode (d : DevCode) : Bool := !isBoard d && decide (d ≠ devCpu) && decide (d ≠ 0)

theorem extSound_iff {s : State} : extSound s = true ↔ ∀ x ∈ s.ext, extCode x.code = true := by
  simp [extSound, extCode]

/-- The word XCT keeps is one it can go on with. -/
theorem isHeldWord_of_xctSound {s : State} {w : Word} (h : xctSound s = true) (hx : s.xct = some w) :
    isHeldWord w = true := by
  simp only [xctSound, hx, Bool.and_eq_true] at h
  exact h.1

/-- XCT keeps no word unless the processor runs. -/
theorem xct_eq_none_of_not_running {s : State} (h : Sound s) (hr : s.runState ≠ .running) : s.xct = none := by
  obtain ⟨-, -, -, -, hxct, -⟩ := h
  cases hx : s.xct with
  | none => rfl
  | some w =>
    simp only [xctSound, hx, Bool.and_eq_true, decide_eq_true_eq] at hxct
    exact absurd hxct.2 hr

/-! ## Memory that stays installed -/

theorem mem_of_mem_erase {c : Host.Cell} {m : List Host.Cell} {a : Nat} (h : c ∈ Memory.erase m a) : c ∈ m := by
  induction m with
  | nil => exact h
  | cons d m ih =>
    unfold Memory.erase at h
    split at h
    · exact List.mem_cons_of_mem d (ih h)
    · rcases List.mem_cons.mp h with rfl | h
      · exact List.mem_cons_self
      · exact List.mem_cons_of_mem d (ih h)

theorem mem_of_mem_insert {c : Host.Cell} {m : List Host.Cell} {a : Nat} {b : BitVec 8}
    (h : c ∈ Memory.insert m a b) : c = (a, b) ∨ c ∈ m := by
  induction m with
  | nil => exact .inl (List.mem_singleton.mp h)
  | cons d m ih =>
    unfold Memory.insert at h
    split at h
    · exact List.mem_cons.mp h
    · rcases List.mem_cons.mp h with rfl | h
      · exact .inr List.mem_cons_self
      · exact (ih h).imp_right (List.mem_cons_of_mem d)

/-- After a byte write every listed byte was listed before or is the one written. -/
theorem mem_of_mem_write {c : Host.Cell} {m : List Host.Cell} {a : Nat} {b : BitVec 8}
    (h : c ∈ Memory.write m a b) : c.1 = a ∨ c ∈ m := by
  unfold Memory.write at h
  split at h
  · exact .inr (mem_of_mem_erase h)
  · exact (mem_of_mem_insert h).imp (congrArg Prod.fst) mem_of_mem_erase

/-- Writing an installed word leaves memory inside the installed boards (20_memory R103). -/
theorem writeWord_installed {m : List Host.Cell} {n pa : Nat} (h : ∀ c ∈ m, c.1 < 2 * n) (hp : pa < n) (v : Word) :
    ∀ c ∈ Memory.writeWord m pa v, c.1 < 2 * n := by
  intro c hc
  rcases mem_of_mem_write hc with hlow | hc
  · omega
  · rcases mem_of_mem_write hc with hhigh | hc
    · omega
    · exact h c hc

theorem mendAll_installed {n : Nat} (fs : List MemFault) (hf : ∀ f ∈ fs, f.addr.toNat < n) :
    ∀ {m : List Host.Cell}, (∀ c ∈ m, c.1 < 2 * n) → ∀ c ∈ mendAll fs m, c.1 < 2 * n := by
  induction fs with
  | nil => exact fun h => h
  | cons f fs ih =>
    intro m h
    exact ih (fun g hg => hf g (List.mem_cons_of_mem f hg)) (writeWord_installed h (hf f List.mem_cons_self) _)

/-! ## Changes of a state that keep the invariant -/

theorem sound_withMem {s : State} {m : List Host.Cell} (h : Sound s) (hwf : Memory.wf m = true)
    (hin : ∀ c ∈ m, c.1 < 2 * s.cfg.boards.words) : Sound { s with mem := m } := by
  obtain ⟨-, -, hfaults, hmap, hxct, hext⟩ := h
  exact ⟨hwf, memInstalled_iff.mpr hin, hfaults, hmap, hxct, hext⟩

theorem sound_withFaults {s : State} {l : List MemFault} (h : Sound s)
    (hl : ∀ f ∈ l, f.addr.toNat < s.cfg.boards.words) : Sound { s with memFaults := l } := by
  obtain ⟨hwf, hmem, -, hmap, hxct, hext⟩ := h
  exact ⟨hwf, hmem, faultsInstalled_iff.mpr hl, hmap, hxct, hext⟩

theorem sound_withExt {s : State} {l : List ExtDevice} (h : Sound s) (hl : ∀ x ∈ l, extCode x.code = true) :
    Sound { s with ext := l } := by
  obtain ⟨hwf, hmem, hfaults, hmap, hxct, -⟩ := h
  exact ⟨hwf, hmem, hfaults, hmap, hxct, extSound_iff.mpr hl⟩

/-- The map on or off, its enable waiting or not, but never both (47_map R601). -/
theorem sound_withMap {s : State} {on pending : Bool} (h : Sound s) (hmap : (on && pending) = false) :
    Sound { s with mapOn := on, mapPending := pending } := by
  obtain ⟨hwf, hmem, hfaults, -, hxct, hext⟩ := h
  exact ⟨hwf, hmem, hfaults, hmap, hxct, hext⟩

theorem sound_mapOff {s : State} (h : Sound s) : Sound { s with mapOn := false } :=
  sound_withMap (pending := s.mapPending) h (Bool.false_and _)

/-- Without a word of XCT every run state is sound. -/
theorem sound_withoutXct {s : State} (h : Sound s) (r : RunState) : Sound { s with runState := r, xct := none } := by
  obtain ⟨hwf, hmem, hfaults, hmap, -, hext⟩ := h
  exact ⟨hwf, hmem, hfaults, hmap, rfl, hext⟩

/-- A running processor may keep a word XCT can go on with (45_program_flow R480). -/
theorem sound_withXct {s : State} {w : Word} (h : Sound s) (hr : s.runState = .running) (hw : isHeldWord w = true) :
    Sound { s with xct := some w } := by
  obtain ⟨hwf, hmem, hfaults, hmap, -, hext⟩ := h
  refine ⟨hwf, hmem, hfaults, hmap, ?_, hext⟩
  simp [xctSound, hw, hr]

theorem ext_codes_map {s : State} (h : Sound s) {g : ExtDevice → ExtDevice} (hg : ∀ x, (g x).code = x.code) :
    ∀ x ∈ s.ext.map g, extCode x.code = true := by
  obtain ⟨-, -, -, -, -, hext⟩ := h
  intro y hy
  obtain ⟨x, hx, rfl⟩ := List.mem_map.mp hy
  rw [hg]
  exact extSound_iff.mp hext x hx

/-- A change of the controllers that moves none. -/
theorem sound_mapExt {s : State} (h : Sound s) (d : DevCode) {g : ExtDevice → ExtDevice}
    (hg : ∀ x, (g x).code = x.code) : Sound { s with ext := mapExt d g s.ext } :=
  sound_withExt h (ext_codes_map h fun x => by split <;> simp only [hg])

theorem mem_of_mem_dropFault {l : List MemFault} {pa : Nat} {f : MemFault} (h : f ∈ dropFault l pa) : f ∈ l :=
  (List.mem_filter.mp h).1

theorem sound_fault_installed {s : State} (h : Sound s) {f : MemFault} (hf : f ∈ s.memFaults) :
    f.addr.toNat < s.cfg.boards.words := by
  obtain ⟨-, -, hfaults, -, -, -⟩ := h
  exact faultsInstalled_iff.mp hfaults f hf

theorem sound_dropFault {s : State} (h : Sound s) (pa : Nat) : Sound { s with memFaults := dropFault s.memFaults pa } :=
  sound_withFaults h fun _ hf => sound_fault_installed h (mem_of_mem_dropFault hf)

/-- A word written in installed memory. -/
theorem sound_writeWord {s : State} (h : Sound s) {pa : Nat} (hp : pa < s.cfg.boards.words) (v : Word) :
    Sound { s with mem := Memory.writeWord s.mem pa v } := by
  have hall := h
  obtain ⟨hwf, hmem, -, -, -, -⟩ := hall
  exact sound_withMem h (wf_writeWord hwf pa v) (writeWord_installed (memInstalled_iff.mp hmem) hp v)

theorem sound_storeWord {s : State} (h : Sound s) {pa : Nat} (hp : pa < s.cfg.boards.words) (v : Word) :
    Sound (storeWord pa v s) :=
  sound_dropFault (sound_writeWord h hp v) pa

theorem findFault_mem {s : State} {pa : Nat} {f : MemFault} (h : findFault s pa = some f) : f ∈ s.memFaults :=
  List.mem_of_find?_eq_some h

/-- The read of a word in error, which may rewrite it as corrected (46_io R554). -/
theorem sound_faultFound {s : State} (h : Sound s) {f : MemFault} (hf : f ∈ s.memFaults) : Sound (faultFound f s) := by
  unfold faultFound
  split
  · split
    · exact sound_storeWord h (sound_fault_installed h hf) _
    · exact h
  · exact h

theorem sound_sniffEvent {s : State} (h : Sound s) : Sound (sniffEvent s) := by
  have hall := h
  obtain ⟨hwf, hmem, -, -, -, -⟩ := hall
  have hkept : ∀ p : MemFault → Bool, ∀ f ∈ s.memFaults.filter p, f.addr.toNat < s.cfg.boards.words :=
    fun p f hf => sound_fault_installed h (List.mem_filter.mp hf).1
  unfold sniffEvent
  split
  · exact sound_withMem (sound_withFaults h (hkept _)) (mendAll_wf _ hwf)
      (mendAll_installed _ (hkept _) (memInstalled_iff.mp hmem))
  · exact h

/-- An I/O reset turns the map off and clears the controllers' flags (46_io R526, 47_map R600). -/
theorem sound_ioReset {s : State} (h : Sound s) : Sound (ioReset s) :=
  sound_withExt (sound_withMap (on := false) (pending := false) h rfl) (ext_codes_map h fun _ => rfl)

theorem sound_cpuCommand {s : State} (h : Sound s) (f : IoFlag) : Sound (cpuCommand f s) := by
  cases f <;> exact h

theorem sound_enterConsole {s : State} (h : Sound s) : Sound (enterConsole s) := sound_withoutXct h .console

theorem sound_resume {s : State} (h : Sound s) : Sound (resume s) := sound_withoutXct h .running

end Sys2Proof.Laws
end

section
/-!
SUPPORT for the proof of O5: what a piece of an instruction leads to, the rules to put pieces together, and the shared
operations, each of which keeps the invariant, the run state and the word of XCT.
-/

namespace Sys2Proof.Laws

set_option Elab.async false

open Sys2Proof.Machine

/-! ## Pieces of an instruction -/

/-- The invariant, in the run state `r` and with `x` as the word XCT keeps. -/
def Steady (r : RunState) (x : Option Word) (s : State) : Prop := Sound s ∧ s.runState = r ∧ s.xct = x

/-- A result that goes on does so with `Q`; one that stops does so in a sound state, from which a MAP fault's sequence can
run. -/
def EndsIn {α : Type} (Q : State → Prop) : EStateM.Result Stop State α → Prop
  | .ok _ t => Q t
  | .error _ t => Sound t

/-- From `P` the piece leads to `Q`. -/
def Leads {α : Type} (P : State → Prop) (m : M α) (Q : State → Prop) : Prop := ∀ s, P s → EndsIn Q (m s)

/-- The piece keeps the invariant, the run state and the word of XCT. -/
def Keeps {α : Type} (m : M α) : Prop := ∀ r x, Leads (Steady r x) m (Steady r x)

theorem Steady.sound {r : RunState} {x : Option Word} {s : State} (h : Steady r x s) : Sound s := h.1

theorem steady_of_sound {s : State} (h : Sound s) : Steady s.runState s.xct s := ⟨h, rfl, rfl⟩

section
variable {α β : Type} {P Q R : State → Prop}

theorem Leads.bind {m : M α} {f : α → M β} (hm : Leads P m R) (hf : ∀ a, Leads R (f a) Q) : Leads P (m >>= f) Q := by
  intro s hs
  have hend := hm s hs
  rw [run_bind]
  cases hres : m s with
  | ok a t => rw [hres] at hend; exact hf a t hend
  | error e t => rw [hres] at hend; exact hend

/-- Reading the state changes nothing, and what follows starts from the state read. -/
theorem Leads.get {f : State → M β} (hf : ∀ s, P s → EndsIn Q (f s s)) : Leads P (get >>= f) Q := hf

theorem Leads.modify {g : State → State} (hg : ∀ s, P s → Q (g s)) : Leads P (modify g : M Unit) Q := hg

theorem Leads.ite {c : Prop} [Decidable c] {m k : M α} (hm : Leads P m Q) (hk : Leads P k Q) :
    Leads P (if c then m else k) Q := by
  split
  · exact hm
  · exact hk

theorem Leads.weaken {m : M α} (hm : Leads P m R) (hQ : ∀ s, R s → Q s) : Leads P m Q := by
  intro s hs
  have hend := hm s hs
  cases hres : m s with
  | ok a t => rw [hres] at hend; exact hQ t hend
  | error e t => rw [hres] at hend; exact hend

theorem Keeps.leads {m : M α} (hm : Keeps m) {r : RunState} {x : Option Word} : Leads (Steady r x) m (Steady r x) :=
  hm r x

theorem Keeps.leadsSound {m : M α} (hm : Keeps m) : Leads Sound m Sound :=
  fun s hs => (hm.leads.weaken fun _ => Steady.sound) s (steady_of_sound hs)

theorem Keeps.bind {m : M α} {f : α → M β} (hm : Keeps m) (hf : ∀ a, Keeps (f a)) : Keeps (m >>= f) :=
  fun r x => (hm r x).bind fun a => hf a r x

/-- One piece after another that uses nothing of it. -/
theorem Keeps.seq {m : M α} {k : M β} (hm : Keeps m) (hk : Keeps k) : Keeps (m >>= fun _ => k) := hm.bind fun _ => hk

theorem Keeps.ite {c : Prop} [Decidable c] {m k : M α} (hm : Keeps m) (hk : Keeps k) : Keeps (if c then m else k) :=
  fun r x => Leads.ite (hm r x) (hk r x)

theorem Keeps.pure (a : α) : Keeps (pure a : M α) := fun _ _ _ h => h

theorem Keeps.get : Keeps (get : M State) := fun _ _ _ h => h

theorem Keeps.stop (e : Stop) : Keeps (stop e : M α) := fun _ _ _ h => h.sound

/-- A change of the state that keeps the invariant and, as a rule by definition, the other two. -/
theorem Keeps.modify {g : State → State} (hs : ∀ s, Sound s → Sound (g s))
    (hr : ∀ s, (g s).runState = s.runState := by exact fun _ => rfl) (hx : ∀ s, (g s).xct = s.xct := by exact fun _ => rfl) :
    Keeps (modify g : M Unit) := by
  rintro r x s ⟨h, rfl, rfl⟩
  exact ⟨hs s h, hr s, hx s⟩

end

/-! ## Registers and free values -/

theorem keeps_getAc (i : AcNo) : Keeps (getAc i) := Keeps.get.bind fun _ => .pure _

theorem keeps_setAc (i : AcNo) (v : Word) : Keeps (setAc i v) := .modify fun _ h => h

theorem keeps_getFpac (i : AcNo) : Keeps (getFpac i) := Keeps.get.bind fun _ => .pure _

theorem keeps_setFpac (i : AcNo) (v : QWord) : Keeps (setFpac i v) := .modify fun _ h => h

theorem keeps_setCry (c : Bool) : Keeps (setCry c) := .modify fun _ h => h

theorem keeps_setPc (a : Addr) : Keeps (setPc a) := .modify fun _ h => h

theorem keeps_advance (n : Nat) : Keeps (advance n) := .modify fun _ h => h

theorem keeps_skipIf (n : Nat) (c : Bool) : Keeps (skipIf n c) := keeps_advance _

theorem keeps_emit (o : HostOutput) : Keeps (emit o) := .modify fun _ h => h

theorem keeps_drawFree (n : Nat) : Keeps (drawFree n) := fun _ _ _ h => h

theorem keeps_drawBit : Keeps drawBit := (keeps_drawFree 1).bind fun _ => .pure _

theorem keeps_setFpsr (f : Fpsr) : Keeps (setFpsr f) := .modify fun _ h => h

theorem keeps_modifyFpsr (g : Fpsr → Fpsr) : Keeps (modifyFpsr g) := .modify fun _ h => h

theorem keeps_getPair (i : AcNo) : Keeps (getPair i) :=
  (keeps_getAc i).bind fun _ => (keeps_getAc _).bind fun _ => .pure _

theorem keeps_setPair (i : AcNo) (v : DWord) : Keeps (setPair i v) := (keeps_setAc i _).seq (keeps_setAc _ _)

/-! ## Physical memory -/

theorem run_physRead_beyond {s : State} {pa : Nat} (hp : ¬ pa < s.cfg.boards.words) :
    physRead pa s = drawFree 16 s := by
  unfold physRead
  rw [run_bind_ok (run_get s), if_neg hp]

theorem run_physWrite_beyond {s : State} {pa : Nat} (hp : ¬ pa < s.cfg.boards.words) (v : Word) :
    physWrite pa v s = .ok () s := by
  unfold physWrite
  rw [run_bind_ok (run_get s), if_neg hp, run_pure]

theorem faultFound_runState (f : MemFault) (s : State) : (faultFound f s).runState = s.runState := by
  unfold faultFound
  split
  · split <;> rfl
  · rfl

theorem faultFound_xct (f : MemFault) (s : State) : (faultFound f s).xct = s.xct := by
  unfold faultFound
  split
  · split <;> rfl
  · rfl

theorem keeps_physRead (pa : Nat) : Keeps (physRead pa) := by
  intro r x s hs
  by_cases hp : pa < s.cfg.boards.words
  · cases hf : findFault s pa with
    | none => rw [run_physRead hp hf]; exact hs
    | some f =>
      obtain ⟨h, hr, hx⟩ := hs
      rw [run_physRead_fault hp hf]
      exact ⟨sound_faultFound h (findFault_mem hf), (faultFound_runState f s).trans hr, (faultFound_xct f s).trans hx⟩
  · rw [run_physRead_beyond hp]
    exact keeps_drawFree 16 r x s hs

/-- Putting an error into an installed word (46_io R554). -/
theorem putError_endsIn {r : RunState} {x : Option Word} {s : State} (hs : Steady r x s) {addr : BitVec 20}
    (ha : addr.toNat < s.cfg.boards.words) (data : Word) (check : BitVec 6) :
    EndsIn (Steady r x) (putError addr data check s) := by
  obtain ⟨h, hr, hx⟩ := hs
  rw [run_putError]
  split
  · exact ⟨sound_dropFault h _, hr, hx⟩
  · have hl : ∀ code, ∀ f ∈ (⟨addr, data, check, code⟩ : MemFault) :: dropFault s.memFaults addr.toNat,
        f.addr.toNat < s.cfg.boards.words := by
      intro code f hf
      rcases List.mem_cons.mp hf with rfl | hf
      · exact ha
      · exact sound_fault_installed h (mem_of_mem_dropFault hf)
    exact ⟨sound_withFaults h (hl _), hr, hx⟩

theorem keeps_physWrite (pa : Nat) (v : Word) : Keeps (physWrite pa v) := by
  intro r x s hs
  have hall := hs
  obtain ⟨h, hr, hx⟩ := hall
  by_cases hp : pa < s.cfg.boards.words
  · cases hf : findFault s pa with
    | none => rw [run_physWrite hp hf]; exact ⟨sound_writeWord h hp v, hr, hx⟩
    | some f =>
      cases hw : erccWrites s.ercc with
      | true => rw [run_physWrite_fault hp hf hw]; exact ⟨sound_storeWord h hp v, hr, hx⟩
      | false =>
        rw [run_physWrite_unchecked hp hf hw]
        split
        · exact hs
        · exact putError_endsIn hs (sound_fault_installed h (findFault_mem hf)) _ _
  · rw [run_physWrite_beyond hp]
    exact hs

/-! ## The data channel -/

theorem keeps_dchTransfer (r : DchRequest) : Keeps (dchTransfer r) := by
  cases r with
  | read map a => exact Keeps.get.bind fun s => (keeps_physRead _).bind fun v => keeps_emit _
  | write map a v => exact Keeps.get.bind fun s => keeps_physWrite _ v

theorem keeps_dchTransfers : ∀ rs : List DchRequest, Keeps (dchTransfers rs)
  | [] => .pure ()
  | r :: rs => (keeps_dchTransfer r).seq (keeps_dchTransfers rs)

theorem keeps_dchService : Keeps dchService := by
  intro r x s hs
  cases hd : s.dchDue with
  | nil =>
    have hrun : dchService s = .ok () s := by
      unfold dchService
      rw [run_bind_ok (run_get s)]
      simp only [hd]
      rfl
    rw [hrun]
    exact hs
  | cons rs due =>
    rw [run_dchService_cons hd]
    exact keeps_dchTransfers rs r x _ hs

theorem keeps_cpuRead (pa : Nat) : Keeps (cpuRead pa) := keeps_dchService.seq (keeps_physRead pa)

theorem keeps_cpuWrite (pa : Nat) (v : Word) : Keeps (cpuWrite pa v) := keeps_dchService.seq (keeps_physWrite pa v)

/-! ## References -/

theorem keeps_clearSc : Keeps clearSc := .modify fun _ h => h

theorem keeps_singleCycleDone : Keeps singleCycleDone := .modify fun _ h => h

theorem keeps_memRead (a : Addr) : Keeps (memRead a) :=
  Keeps.get.bind fun _ => .ite (.ite (.stop _) (keeps_clearSc.seq (keeps_cpuRead _))) (keeps_cpuRead _)

theorem keeps_memWriteBy {wr : Nat → Word → M Unit} (hw : ∀ pa v, Keeps (wr pa v)) (a : Addr) (v : Word) :
    Keeps (memWriteBy wr a v) :=
  Keeps.get.bind fun _ => .ite (.ite (.stop _) (.ite (.stop _) (keeps_clearSc.seq (hw _ v)))) (hw _ v)

theorem keeps_memWrite (a : Addr) (v : Word) : Keeps (memWrite a v) := keeps_memWriteBy keeps_cpuWrite a v

theorem keeps_memWriteHeld (a : Addr) (v : Word) : Keeps (memWriteHeld a v) := keeps_memWriteBy keeps_physWrite a v

theorem keeps_dataRead (a : Addr) : Keeps (dataRead a) :=
  Keeps.get.bind fun _ => .ite (keeps_singleCycleDone.seq (.ite (keeps_drawFree 16) (keeps_cpuRead _))) (keeps_memRead a)

theorem keeps_dataWrite (a : Addr) (v : Word) : Keeps (dataWrite a v) :=
  Keeps.get.bind fun _ => .ite (keeps_singleCycleDone.seq (.ite (.pure ()) (keeps_cpuWrite _ v))) (keeps_memWrite a v)

/-! ## Indirection -/

/-- The map goes on as its enable stops waiting (47_map R601). -/
theorem keeps_completeEnable : Keeps completeEnable := by
  refine .modify (fun s h => ?_) (fun s => ?_) (fun s => ?_)
  · split
    · exact sound_withMap h (Bool.and_false _)
    · exact h
  · split <;> rfl
  · split <;> rfl

theorem keeps_chain {rd : Addr → M Word} (hr : ∀ a, Keeps (rd a)) : ∀ (n level : Nat) (a : Addr), Keeps (chain rd n level a)
  | 0, _, _ => .stop _
  | n + 1, _, a =>
    Keeps.get.bind fun _ => .ite (.stop _) <|
      (hr a).bind fun _ => keeps_completeEnable.seq (.ite (keeps_chain hr n _ _) (.pure _))

theorem keeps_resolveBy {rd : Addr → M Word} (hr : ∀ a, Keeps (rd a)) (ind : Bool) (ia : Addr) :
    Keeps (resolveBy rd ind ia) := .ite (keeps_chain hr _ _ ia) (.pure ia)

theorem keeps_resolve (ind : Bool) (ia : Addr) : Keeps (resolve ind ia) := keeps_resolveBy keeps_memRead ind ia

theorem keeps_resolveWord (w : Word) : Keeps (resolveWord w) := keeps_resolve _ _

theorem keeps_indirectAt (loc : Addr) : Keeps (indirectAt loc) := keeps_resolve true loc

theorem keeps_shortEa (ea : ShortAddr) : Keeps (shortEa ea) := Keeps.get.bind fun _ => keeps_resolve _ _

theorem keeps_extEa (ea : ExtAddr) : Keeps (extEa ea) := Keeps.get.bind fun _ => keeps_resolve _ _

theorem keeps_shortEaData (ea : ShortAddr) : Keeps (shortEaData ea) :=
  Keeps.get.bind fun _ => keeps_resolveBy keeps_dataRead _ _

theorem keeps_extEaData (ea : ExtAddr) : Keeps (extEaData ea) :=
  Keeps.get.bind fun _ => keeps_resolveBy keeps_dataRead _ _

theorem keeps_resolveAc (i : AcNo) : Keeps (resolveAc i) :=
  (keeps_getAc i).bind fun _ => .ite ((keeps_resolve _ _).bind fun _ => keeps_setAc i _) (.pure ())

/-! ## The stack and the traps -/

theorem keeps_push (v : Word) : Keeps (push v) :=
  (keeps_memRead _).bind fun _ => (keeps_memWrite _ v).seq (keeps_memWrite _ _)

theorem keeps_pop : Keeps pop :=
  (keeps_memRead _).bind fun _ => (keeps_memRead _).bind fun _ => (keeps_memWrite _ _).seq (.pure _)

theorem keeps_pushAc (i : AcNo) : Keeps (pushAc i) := (keeps_getAc i).bind keeps_push

theorem keeps_pushBlock (ret : Addr) : Keeps (pushBlock ret) :=
  (keeps_pushAc 0).seq <| (keeps_pushAc 1).seq <| (keeps_pushAc 2).seq <| (keeps_pushAc 3).seq <|
    Keeps.get.bind fun _ => keeps_push _

theorem keeps_stackFault (ret : Addr) : Keeps (stackFault ret) :=
  (keeps_memRead _).bind fun _ => (keeps_memWrite _ _).seq <| (keeps_memRead _).bind fun _ => (keeps_memWrite _ _).seq <|
    (keeps_pushBlock ret).seq <| (keeps_indirectAt _).bind keeps_setPc

theorem keeps_finishAt (a : Addr) : Keeps (finishAt a) :=
  (keeps_memRead _).bind fun _ => (keeps_memRead _).bind fun _ => .ite (keeps_stackFault a) (keeps_setPc a)

theorem keeps_takeTrap (loc ret : Addr) : Keeps (takeTrap loc ret) :=
  (keeps_pushBlock ret).seq <| (keeps_indirectAt loc).bind keeps_finishAt

theorem keeps_popAcs : Keeps popAcs :=
  keeps_pop.bind fun _ => (keeps_setAc 3 _).seq <| keeps_pop.bind fun _ => (keeps_setAc 2 _).seq <|
    keeps_pop.bind fun _ => (keeps_setAc 1 _).seq <| keeps_pop.bind fun _ => keeps_setAc 0 _

theorem keeps_popBlock : Keeps popBlock :=
  keeps_pop.bind fun _ => (keeps_setCry _).seq <| keeps_popAcs.seq (.pure _)

/-- The MAP fault sequence turns the map off and drops its enable (47_map R582). -/
theorem keeps_mapFaultEntry (k : MapFaultKind) : Keeps (mapFaultEntry k) := by
  refine Keeps.seq (.modify fun s h => ?_) ((keeps_drawFree 15).bind fun _ => keeps_takeTrap _ _)
  exact sound_withMap (on := false) (pending := false) h rfl

theorem keeps_fpCheck (len : Nat) : Keeps (fpCheck len) :=
  Keeps.get.bind fun _ => .ite ((keeps_setFpsr _).seq (keeps_takeTrap _ _)) (keeps_advance len)

/-! ## Bytes and bits -/

theorem keeps_byteReadAt (a : Addr) (right : Bool) : Keeps (byteReadAt a right) := (keeps_memRead a).bind fun _ => .pure _

theorem keeps_byteWriteAt (a : Addr) (right : Bool) (b : BitVec 8) : Keeps (byteWriteAt a right b) :=
  (keeps_memRead a).bind fun _ => keeps_memWrite a _

theorem keeps_byteRead (bp : Word) : Keeps (byteRead bp) := keeps_byteReadAt _ _

theorem keeps_byteWrite (bp : Word) (b : BitVec 8) : Keeps (byteWrite bp b) := keeps_byteWriteAt _ _ b

theorem keeps_bitWord (acs acd : AcNo) : Keeps (bitWord acs acd) :=
  (keeps_getAc acd).bind fun _ => .ite (.pure _) <|
    (keeps_getAc acs).bind fun _ => (keeps_resolveWord _).bind fun _ => .pure _

/-! ## The end of an instruction -/

/-- An outcome with a next state has a sound one. -/
def EndsSound (r : Host.Outcome State Fault Refusal) : Prop := ∀ t, r = .next t → Sound t

/-- An instruction that, in a running processor with no word of XCT, leaves a sound state. -/
def ExecSound (f : State → Host.Outcome State Fault Refusal) : Prop := ∀ s, Steady .running none s → EndsSound (f s)

theorem endsSound_next {t : State} (h : Sound t) : EndsSound (.next t) := by
  rintro _ ⟨⟩
  exact h

theorem endsSound_fault (f : Fault) : EndsSound (.fault f) := by
  intro t h
  cases h

theorem endsSound_refused (r : Refusal) : EndsSound (.refused r) := by
  intro t h
  cases h

theorem endsSound_outcomeOf {r : EStateM.Result Stop State Unit} (h : EndsIn Sound r) : EndsSound (outcomeOf r) := by
  cases r with
  | ok u t => exact endsSound_next h
  | error e t =>
    cases e with
    | mapFault k => exact endsSound_fault .nestedMapFault
    | fault f => exact endsSound_fault f
    | refusal r => exact endsSound_refused r

/-- A MAP fault's sequence starts from the sound state the fault left (47_map R582). -/
theorem endsSound_finish {r : EStateM.Result Stop State Unit} (h : EndsIn Sound r) : EndsSound (finish r) := by
  cases r with
  | ok u t => exact endsSound_next h
  | error e t =>
    cases e with
    | mapFault k => exact endsSound_outcomeOf ((keeps_mapFaultEntry k).leadsSound t h)
    | fault f => exact endsSound_fault f
    | refusal r => exact endsSound_refused r

theorem Leads.endsSound {P : State → Prop} {m : M Unit} (hm : Leads P m Sound) {s : State} (hs : P s) :
    EndsSound (runInstr m s) := endsSound_finish (hm s hs)

theorem Keeps.runInstr {m : M Unit} (hm : Keeps m) : ExecSound (runInstr m) :=
  fun _ hs => hm.leadsSound.endsSound hs.sound

end Sys2Proof.Laws
end

section
/-!
SUPPORT for the proof of O5: the instructions, class by class. Each derivation follows its instruction's own sequence; a
sequence several instructions share has one lemma.
-/

namespace Sys2Proof.Laws

set_option Elab.async false

open Sys2Proof.Machine

/-- A piece that keeps the invariant leads to a sound state. -/
theorem Keeps.toSound {α : Type} {m : M α} (hm : Keeps m) {r : RunState} {x : Option Word} :
    Leads (Steady r x) m Sound := hm.leads.weaken fun _ => Steady.sound

theorem Leads.execSound {m : M Unit} (hm : Leads (Steady .running none) m Sound) : ExecSound (runInstr m) :=
  fun _ => hm.endsSound

/-! ## Arithmetic and logic -/

theorem keeps_alc (fn : Word → Word → Bool × Word) (o : AlcOps) : Keeps (alc fn o) :=
  Keeps.get.bind fun _ => .ite (keeps_skipIf 1 _) ((keeps_setAc _ _).seq <| (keeps_setCry _).seq (keeps_skipIf 1 _))

theorem keeps_updateAc (ac : AcNo) (len : Nat) (g : Word → Word) : Keeps (updateAc ac len g) :=
  (keeps_getAc ac).bind fun _ => (keeps_setAc ac _).seq (keeps_advance len)

theorem keeps_updateAcd (acs acd : AcNo) (g : Word → Word → Word) : Keeps (updateAcd acs acd g) :=
  (keeps_getAc acs).bind fun _ => (keeps_getAc acd).bind fun _ => (keeps_setAc acd _).seq (keeps_advance 1)

theorem keeps_setDigit (acd : AcNo) (d : BitVec 4) (c : Bool) : Keeps (setDigit acd d c) :=
  (keeps_getAc acd).bind fun _ => (keeps_setAc acd _).seq (keeps_setCry c)

theorem keeps_decimal (op : Nat → Nat → Bool → BitVec 4 × Bool) (acs acd : AcNo) : Keeps (decimal op acs acd) :=
  Keeps.get.bind fun _ => .ite
    ((keeps_drawFree 4).bind fun _ => keeps_drawBit.bind fun _ => (keeps_setDigit acd _ _).seq (keeps_advance 1))
    ((keeps_setDigit acd _ _).seq (keeps_advance 1))

theorem keeps_signedDivide (n : DWord) : Keeps (signedDivide n) :=
  (keeps_getAc 2).bind fun _ => .ite
    ((keeps_drawFree 16).bind fun _ => (keeps_drawFree 16).bind fun _ =>
      (keeps_setAc 0 _).seq <| (keeps_setAc 1 _).seq <| (keeps_setCry true).seq (keeps_advance 1))
    ((keeps_setAc 0 _).seq <| (keeps_setAc 1 _).seq <| (keeps_setCry false).seq (keeps_advance 1))

theorem execAdi_sound (n : BitVec 2) (ac : AcNo) : ExecSound (execAdi n ac) := (keeps_updateAc ac 1 _).runInstr

theorem execSbi_sound (n : BitVec 2) (ac : AcNo) : ExecSound (execSbi n ac) := (keeps_updateAc ac 1 _).runInstr

theorem execHxl_sound (n : BitVec 2) (ac : AcNo) : ExecSound (execHxl n ac) := (keeps_updateAc ac 1 _).runInstr

theorem execHxr_sound (n : BitVec 2) (ac : AcNo) : ExecSound (execHxr n ac) := (keeps_updateAc ac 1 _).runInstr

theorem execHlv_sound (ac : AcNo) : ExecSound (execHlv ac) := (keeps_updateAc ac 1 _).runInstr

theorem execIori_sound (ac : AcNo) (i : Word) : ExecSound (execIori ac i) := (keeps_updateAc ac 2 _).runInstr

theorem execXori_sound (ac : AcNo) (i : Word) : ExecSound (execXori ac i) := (keeps_updateAc ac 2 _).runInstr

theorem execAndi_sound (ac : AcNo) (i : Word) : ExecSound (execAndi ac i) := (keeps_updateAc ac 2 _).runInstr

theorem execAddi_sound (ac : AcNo) (i : Word) : ExecSound (execAddi ac i) := (keeps_updateAc ac 2 _).runInstr

theorem execIor_sound (acs acd : AcNo) : ExecSound (execIor acs acd) := (keeps_updateAcd acs acd _).runInstr

theorem execXor_sound (acs acd : AcNo) : ExecSound (execXor acs acd) := (keeps_updateAcd acs acd _).runInstr

theorem execAnc_sound (acs acd : AcNo) : ExecSound (execAnc acs acd) := (keeps_updateAcd acs acd _).runInstr

theorem execLsh_sound (acs acd : AcNo) : ExecSound (execLsh acs acd) := (keeps_updateAcd acs acd _).runInstr

theorem execLob_sound (acs acd : AcNo) : ExecSound (execLob acs acd) := (keeps_updateAcd acs acd _).runInstr

theorem execCob_sound (acs acd : AcNo) : ExecSound (execCob acs acd) := (keeps_updateAcd acs acd _).runInstr

theorem execXch_sound (acs acd : AcNo) : ExecSound (execXch acs acd) :=
  Keeps.runInstr <| (keeps_getAc acs).bind fun _ => (keeps_getAc acd).bind fun _ =>
    (keeps_setAc acs _).seq <| (keeps_setAc acd _).seq (keeps_advance 1)

theorem execDhxl_sound (n : BitVec 2) (ac : AcNo) : ExecSound (execDhxl n ac) :=
  Keeps.runInstr <| (keeps_getPair ac).bind fun _ => (keeps_setPair ac _).seq (keeps_advance 1)

theorem execDhxr_sound (n : BitVec 2) (ac : AcNo) : ExecSound (execDhxr n ac) :=
  Keeps.runInstr <| (keeps_getPair ac).bind fun _ => (keeps_setPair ac _).seq (keeps_advance 1)

theorem execDlsh_sound (acs acd : AcNo) : ExecSound (execDlsh acs acd) :=
  Keeps.runInstr <| (keeps_getAc acs).bind fun _ => (keeps_getPair acd).bind fun _ =>
    (keeps_setPair acd _).seq (keeps_advance 1)

theorem execMul_sound : ExecSound execMul :=
  Keeps.runInstr <| (keeps_getAc 0).bind fun _ => (keeps_getAc 1).bind fun _ => (keeps_getAc 2).bind fun _ =>
    (keeps_setPair 0 _).seq (keeps_advance 1)

theorem execMuls_sound : ExecSound execMuls :=
  Keeps.runInstr <| (keeps_getAc 0).bind fun _ => (keeps_getAc 1).bind fun _ => (keeps_getAc 2).bind fun _ =>
    (keeps_setPair 0 _).seq (keeps_advance 1)

theorem execDiv_sound : ExecSound execDiv :=
  Keeps.runInstr <| (keeps_getAc 0).bind fun _ => (keeps_getAc 2).bind fun _ => (keeps_getPair 0).bind fun _ => .ite
    ((keeps_setCry true).seq (keeps_advance 1))
    ((keeps_setAc 0 _).seq <| (keeps_setAc 1 _).seq <| (keeps_setCry false).seq (keeps_advance 1))

theorem execDivs_sound : ExecSound execDivs := Keeps.runInstr <| (keeps_getPair 0).bind keeps_signedDivide

theorem execDivx_sound : ExecSound execDivx :=
  Keeps.runInstr <| (keeps_getAc 1).bind fun _ => (keeps_setAc 0 _).seq <| (keeps_getPair 0).bind keeps_signedDivide

theorem execLrb_sound (acs acd : AcNo) : ExecSound (execLrb acs acd) := by
  have hclear : ∀ v, Keeps (setAc acs v >>= fun _ => advance 1) := fun v => (keeps_setAc acs v).seq (keeps_advance 1)
  exact Keeps.runInstr <| (keeps_getAc acs).bind fun _ => (keeps_getAc acd).bind fun _ =>
    .ite (hclear _) ((keeps_setAc acd _).seq (hclear _))

/-! ## Words, addresses and bytes -/

theorem execLda_sound (ac : AcNo) (ea : ShortAddr) : ExecSound (execLda ac ea) :=
  Keeps.runInstr <| (keeps_shortEaData ea).bind fun e => (keeps_dataRead e).bind fun _ =>
    (keeps_setAc ac _).seq (keeps_advance 1)

theorem execSta_sound (ac : AcNo) (ea : ShortAddr) : ExecSound (execSta ac ea) :=
  Keeps.runInstr <| (keeps_shortEaData ea).bind fun e => (keeps_getAc ac).bind fun v =>
    (keeps_dataWrite e v).seq (keeps_advance 1)

theorem execElda_sound (ac : AcNo) (ea : ExtAddr) : ExecSound (execElda ac ea) :=
  Keeps.runInstr <| (keeps_extEaData ea).bind fun e => (keeps_dataRead e).bind fun _ =>
    (keeps_setAc ac _).seq (keeps_advance 2)

theorem execEsta_sound (ac : AcNo) (ea : ExtAddr) : ExecSound (execEsta ac ea) :=
  Keeps.runInstr <| (keeps_extEaData ea).bind fun e => (keeps_getAc ac).bind fun v =>
    (keeps_dataWrite e v).seq (keeps_advance 2)

theorem execLef_sound (ac : AcNo) (ea : ShortAddr) : ExecSound (execLef ac ea) :=
  Keeps.runInstr <| (keeps_shortEa ea).bind fun _ => (keeps_setAc ac _).seq (keeps_advance 1)

theorem execElef_sound (ac : AcNo) (ea : ExtAddr) : ExecSound (execElef ac ea) :=
  Keeps.runInstr <| (keeps_extEa ea).bind fun _ => (keeps_setAc ac _).seq (keeps_advance 2)

theorem execLdb_sound (acs acd : AcNo) : ExecSound (execLdb acs acd) :=
  Keeps.runInstr <| (keeps_getAc acs).bind fun bp => (keeps_byteRead bp).bind fun _ =>
    (keeps_setAc acd _).seq (keeps_advance 1)

theorem execStb_sound (acs acd : AcNo) : ExecSound (execStb acs acd) :=
  Keeps.runInstr <| (keeps_getAc acs).bind fun bp => (keeps_getAc acd).bind fun _ =>
    (keeps_byteWrite bp _).seq (keeps_advance 1)

theorem execEldb_sound (ac : AcNo) (idx : Index) (disp : Word) : ExecSound (execEldb ac idx disp) :=
  Keeps.runInstr <| Keeps.get.bind fun _ => (keeps_byteReadAt _ _).bind fun _ => (keeps_setAc ac _).seq (keeps_advance 2)

theorem execEstb_sound (ac : AcNo) (idx : Index) (disp : Word) : ExecSound (execEstb ac idx disp) :=
  Keeps.runInstr <| Keeps.get.bind fun _ => (keeps_byteWriteAt _ _ _).seq (keeps_advance 2)

/-! ## Blocks -/

/-- XCT keeps a word it can go on with (45_program_flow R480). -/
theorem keepWord_leads {w : Word} (hw : isHeldWord w = true) : Leads (Steady .running none) (keepWord w) Sound :=
  .modify fun _ hs => sound_withXct hs.sound hs.2.1 hw

theorem blockStep_leads {r : RunState} {x : Option Word} (f : State → Word → Word) {again : M Unit}
    (hagain : Leads (Steady r x) again Sound) : Leads (Steady r x) (blockStep f again) Sound :=
  (keeps_getAc 1).leads.bind fun _ => .ite (keeps_advance 1).toSound <|
    (keeps_resolveAc 2).leads.bind fun _ => (keeps_resolveAc 3).leads.bind fun _ =>
    (keeps_getAc 2).leads.bind fun _ => (keeps_memRead _).leads.bind fun _ =>
    (keeps_getAc 3).leads.bind fun _ => Keeps.get.leads.bind fun _ => (keeps_memWrite _ _).leads.bind fun _ =>
    (keeps_setAc 1 _).leads.bind fun _ => (keeps_setAc 2 _).leads.bind fun _ => (keeps_setAc 3 _).leads.bind fun _ =>
    .ite (keeps_advance 1).toSound hagain

theorem execBlm_sound : ExecSound execBlm := (blockStep_leads _ (Keeps.pure ()).toSound).execSound

theorem execBam_sound : ExecSound execBam := (blockStep_leads _ (Keeps.pure ()).toSound).execSound

theorem execBlmUnder_sound {w : Word} (hw : isHeldWord w = true) : ExecSound (execBlmUnder w) :=
  (blockStep_leads _ (keepWord_leads hw)).execSound

/-! ## Character strings -/

theorem keeps_takeByte (len ptr : AcNo) : Keeps (takeByte len ptr) :=
  (keeps_getAc len).bind fun _ => .ite (.pure _) <| (keeps_getAc ptr).bind fun p => (keeps_byteRead p).bind fun _ =>
    (keeps_setAc ptr _).seq <| (keeps_setAc len _).seq (.pure _)

theorem keeps_passByte (len ptr : AcNo) : Keeps (passByte len ptr) :=
  (keeps_getAc len).bind fun _ => .ite (.pure _) <| (keeps_getAc ptr).bind fun _ =>
    (keeps_setAc ptr _).seq (keeps_setAc len _)

theorem keeps_peekByte (len ptr : AcNo) : Keeps (peekByte len ptr) :=
  (keeps_getAc len).bind fun _ => .ite (.pure _) <| (keeps_getAc ptr).bind keeps_byteRead

theorem keeps_cmvEnd : Keeps cmvEnd :=
  (keeps_getAc 0).bind fun _ => .ite
    ((keeps_getAc 1).bind fun _ => (keeps_setCry _).seq (keeps_advance 1)) (.pure ())

theorem execCmv_sound : ExecSound execCmv :=
  Keeps.runInstr <| (keeps_getAc 0).bind fun _ => .ite keeps_cmvEnd <|
    (keeps_takeByte 1 3).bind fun _ => (keeps_getAc 2).bind fun p => (keeps_byteWrite p _).seq <|
      (keeps_setAc 2 _).seq <| (keeps_setAc 0 _).seq keeps_cmvEnd

theorem execCmp_sound : ExecSound execCmp :=
  Keeps.runInstr <| (keeps_getAc 0).bind fun _ => (keeps_getAc 1).bind fun _ => .ite
    ((keeps_setAc 1 _).seq (keeps_advance 1)) <|
    (keeps_peekByte 1 3).bind fun _ => (keeps_peekByte 0 2).bind fun _ => .ite
      ((keeps_passByte 1 3).seq <| (keeps_passByte 0 2).seq <|
        (keeps_getAc 0).bind fun _ => (keeps_getAc 1).bind fun _ => .ite (keeps_advance 1) (.pure ()))
      ((keeps_setAc 1 _).seq (keeps_advance 1))

theorem keeps_delimiter (table : Addr) (b : BitVec 8) : Keeps (delimiter table b) :=
  (keeps_memRead _).bind fun _ => .pure _

theorem keeps_cmtEnd : Keeps cmtEnd := keeps_drawBit.bind fun c => (keeps_setCry c).seq (keeps_advance 1)

theorem execCmt_sound : ExecSound execCmt :=
  Keeps.runInstr <| (keeps_resolveAc 0).seq <| (keeps_getAc 1).bind fun _ => .ite keeps_cmtEnd <|
    (keeps_getAc 0).bind fun _ => (keeps_getAc 3).bind fun src => (keeps_byteRead src).bind fun b =>
    (keeps_delimiter _ b).bind fun _ => .ite keeps_cmtEnd <|
      (keeps_getAc 2).bind fun dst => (keeps_byteWrite dst b).seq <|
        (keeps_setAc 2 _).seq <| (keeps_setAc 3 _).seq <| (keeps_setAc 1 _).seq (.ite keeps_cmtEnd (.pure ()))

theorem keeps_translate (tbp : Word) (b : BitVec 8) : Keeps (translate tbp b) := keeps_byteRead _

theorem keeps_ctrNext (p2 p3 n : Word) : Keeps (ctrNext p2 p3 n) :=
  (keeps_setAc 2 _).seq <| (keeps_setAc 3 _).seq <| (keeps_setAc 1 n).seq (.ite (keeps_advance 1) (.pure ()))

theorem execCtr_sound : ExecSound execCtr := by
  have hmove : ∀ tbp p2 p3 n : Word, Keeps (do
      let b ← byteRead p3
      let t ← translate tbp b
      byteWrite p2 t
      ctrNext p2 p3 (n + 1)) := fun tbp p2 p3 n =>
    (keeps_byteRead p3).bind fun b => (keeps_translate tbp b).bind fun t =>
      (keeps_byteWrite p2 t).seq (keeps_ctrNext p2 p3 _)
  exact Keeps.runInstr <| (keeps_resolveAc 0).seq <| (keeps_getAc 0).bind fun _ => (keeps_memRead _).bind fun tbp =>
    (keeps_getAc 1).bind fun n => (keeps_getAc 2).bind fun p2 => (keeps_getAc 3).bind fun p3 =>
    .ite (hmove tbp p2 p3 n) <| .ite (keeps_advance 1) <|
      (keeps_byteRead p3).bind fun b1 => (keeps_translate tbp b1).bind fun _ =>
      (keeps_byteRead p2).bind fun b2 => (keeps_translate tbp b2).bind fun _ =>
      .ite (keeps_ctrNext p2 p3 _) ((keeps_setAc 1 _).seq (keeps_advance 1))

/-! ## Bits -/

theorem keeps_updateBit {wr : Addr → Word → M Unit} (hw : ∀ a v, Keeps (wr a v)) (acs acd : AcNo) (v : Bool) :
    Keeps (updateBit wr acs acd v) :=
  (keeps_getAc acd).bind fun _ => (keeps_bitWord acs acd).bind fun a => (keeps_memRead a).bind fun _ =>
    (hw a _).seq (.pure _)

theorem keeps_readBit (acs acd : AcNo) : Keeps (readBit acs acd) :=
  (keeps_getAc acd).bind fun _ => (keeps_bitWord acs acd).bind fun a => (keeps_memRead a).bind fun _ => .pure _

theorem execBto_sound (acs acd : AcNo) : ExecSound (execBto acs acd) :=
  Keeps.runInstr <| (keeps_updateBit keeps_memWrite acs acd true).bind fun _ => keeps_advance 1

theorem execBtz_sound (acs acd : AcNo) : ExecSound (execBtz acs acd) :=
  Keeps.runInstr <| (keeps_updateBit keeps_memWrite acs acd false).bind fun _ => keeps_advance 1

theorem execSnb_sound (acs acd : AcNo) : ExecSound (execSnb acs acd) :=
  Keeps.runInstr <| (keeps_readBit acs acd).bind (keeps_skipIf 1)

theorem execSzb_sound (acs acd : AcNo) : ExecSound (execSzb acs acd) :=
  Keeps.runInstr <| (keeps_readBit acs acd).bind fun _ => keeps_skipIf 1 _

theorem execSzbo_sound (acs acd : AcNo) : ExecSound (execSzbo acs acd) :=
  Keeps.runInstr <| (keeps_updateBit keeps_memWriteHeld acs acd true).bind fun _ => keeps_skipIf 1 _

/-! ## The stack -/

theorem keeps_nextPc (n : Nat) : Keeps (nextPc n) := Keeps.get.bind fun _ => .pure _

theorem keeps_pushAcs : ∀ (n : Nat) (i : AcNo), Keeps (pushAcs n i)
  | 0, _ => .pure ()
  | n + 1, i => (keeps_pushAc i).seq (keeps_pushAcs n _)

theorem keeps_popAcsDown : ∀ (n : Nat) (i : AcNo), Keeps (popAcsDown n i)
  | 0, _ => .pure ()
  | n + 1, i => keeps_pop.bind fun v => (keeps_setAc i v).seq (keeps_popAcsDown n _)

theorem execPsh_sound (acs acd : AcNo) : ExecSound (execPsh acs acd) :=
  Keeps.runInstr <| (keeps_pushAcs _ acs).seq <| (keeps_nextPc 1).bind keeps_finishAt

theorem execPop_sound (acs acd : AcNo) : ExecSound (execPop acs acd) :=
  Keeps.runInstr <| (keeps_popAcsDown _ acs).seq (keeps_advance 1)

theorem execPshj_sound (ea : ExtAddr) : ExecSound (execPshj ea) :=
  Keeps.runInstr <| (keeps_extEa ea).bind fun e => (keeps_nextPc 2).bind fun _ => (keeps_push _).seq (keeps_finishAt e)

theorem execPopb_sound : ExecSound execPopb :=
  Keeps.runInstr <| keeps_popBlock.bind fun next => keeps_completeEnable.seq (keeps_setPc next)

theorem execPopj_sound : ExecSound execPopj :=
  Keeps.runInstr <| keeps_pop.bind fun _ => keeps_completeEnable.seq (keeps_setPc _)

theorem execPshr_sound : ExecSound execPshr :=
  Keeps.runInstr <| (keeps_nextPc 2).bind fun _ => (keeps_push _).seq <| (keeps_nextPc 1).bind keeps_finishAt

theorem execRstr_sound : ExecSound execRstr :=
  Keeps.runInstr <| (keeps_memRead _).bind fun _ => (keeps_memRead _).bind fun _ => (keeps_setCry _).seq <|
    (keeps_memRead _).bind fun _ => (keeps_setAc 3 _).seq <| (keeps_memRead _).bind fun _ => (keeps_setAc 2 _).seq <|
    (keeps_memRead _).bind fun _ => (keeps_setAc 1 _).seq <| (keeps_memRead _).bind fun _ => (keeps_setAc 0 _).seq <|
    (keeps_memRead _).bind fun _ => (keeps_memWrite _ _).seq <| (keeps_memRead _).bind fun _ => (keeps_memWrite _ _).seq <|
    (keeps_memRead _).bind fun _ => (keeps_memWrite _ _).seq <| (keeps_memRead _).bind fun _ => (keeps_memWrite _ _).seq <|
    keeps_completeEnable.seq (keeps_setPc _)

theorem execRtn_sound : ExecSound execRtn :=
  Keeps.runInstr <| (keeps_memRead _).bind fun _ => (keeps_memWrite _ _).seq <| keeps_popBlock.bind fun next =>
    (keeps_getAc 3).bind fun _ => (keeps_memWrite _ _).seq <| keeps_completeEnable.seq (keeps_setPc next)

theorem execSave_sound (i : Word) : ExecSound (execSave i) :=
  Keeps.runInstr <| (keeps_memRead _).bind fun _ => (keeps_pushAc 0).seq <| (keeps_pushAc 1).seq <| (keeps_pushAc 2).seq <|
    (keeps_memRead _).bind fun _ => (keeps_push _).seq <| Keeps.get.bind fun _ => (keeps_push _).seq <|
    (keeps_memRead _).bind fun _ => (keeps_memRead _).bind fun _ => .ite
      ((keeps_memWrite _ _).seq (keeps_stackFault _))
      ((keeps_memWrite _ _).seq <| (keeps_setAc 3 _).seq <| (keeps_memWrite _ _).seq (keeps_advance 2))

theorem execMsp_sound (ac : AcNo) : ExecSound (execMsp ac) :=
  Keeps.runInstr <| (keeps_memRead _).bind fun _ => (keeps_getAc ac).bind fun _ => (keeps_memRead _).bind fun _ => .ite
    (Keeps.get.bind fun _ => keeps_stackFault _) ((keeps_memWrite _ _).seq (keeps_advance 1))

theorem keeps_writeUp : ∀ (ws : List Word) (a : Addr), Keeps (writeUp a ws)
  | [], _ => .pure ()
  | w :: ws, _ => (keeps_memWrite _ w).seq (keeps_writeUp ws _)

theorem keeps_readDown : ∀ (n : Nat) (a : Addr), Keeps (readDown n a)
  | 0, _ => .pure []
  | n + 1, a => (keeps_memRead a).bind fun _ => (keeps_readDown n _).bind fun _ => .pure _

theorem execFpsh_sound : ExecSound execFpsh :=
  Keeps.runInstr <| (keeps_memRead _).bind fun _ => Keeps.get.bind fun _ => (keeps_writeUp _ _).seq <|
    (keeps_memWrite _ _).seq <| (keeps_nextPc 1).bind keeps_finishAt

theorem execFpop_sound : ExecSound execFpop :=
  Keeps.runInstr <| (keeps_memRead _).bind fun _ => (keeps_readDown 18 _).bind fun _ => (keeps_memWrite _ _).seq <|
    (keeps_setFpac 3 _).seq <| (keeps_setFpac 2 _).seq <| (keeps_setFpac 1 _).seq <| (keeps_setFpac 0 _).seq <|
    (keeps_setFpsr _).seq (keeps_advance 1)

end Sys2Proof.Laws
end

section
/-!
SUPPORT for the proof of O5: the floating-point and the program flow instructions.
-/

namespace Sys2Proof.Laws

set_option Elab.async false

open Sys2Proof.Machine

/-! ## Floating-point operations -/

theorem keeps_memFp (p : Prec) (e : Addr) : Keeps (memFp p e) := by
  cases p with
  | single => exact (keeps_memRead _).bind fun _ => (keeps_memRead _).bind fun _ => .pure _
  | double =>
    exact (keeps_memRead _).bind fun _ => (keeps_memRead _).bind fun _ => (keeps_memRead _).bind fun _ =>
      (keeps_memRead _).bind fun _ => .pure _

theorem keeps_raise (e : FpErr) : Keeps (raise e) := .modify fun _ h => h

theorem keeps_setZN (x : QWord) : Keeps (setZN x) := keeps_modifyFpsr _

theorem keeps_setResult (fac : AcNo) (x : QWord) : Keeps (setResult fac x) := (keeps_setFpac fac x).seq (keeps_setZN x)

theorem keeps_setFpResult (fac : AcNo) (r : FpResult) : Keeps (setFpResult fac r) :=
  (keeps_raise _).seq (keeps_setResult fac _)

theorem keeps_freeErr (can : FpErr) : Keeps (freeErr can) :=
  keeps_drawBit.bind fun _ => keeps_drawBit.bind fun _ => keeps_drawBit.bind fun _ => keeps_drawBit.bind fun _ =>
    keeps_drawBit.bind fun _ => .modify fun _ h => h

theorem keeps_freeZN : Keeps freeZN := keeps_drawBit.bind fun _ => keeps_drawBit.bind fun _ => keeps_modifyFpsr _

theorem keeps_freeResult (fac : AcNo) (can : FpErr) : Keeps (freeResult fac can) :=
  (keeps_drawFree 64).bind fun v => (keeps_setFpac fac v).seq <| keeps_freeZN.seq (keeps_freeErr can)

theorem keeps_fpArith (p : Prec) (op : QWord → QWord → FpResult) (fac : AcNo) (b : QWord) : Keeps (fpArith p op fac b) :=
  (keeps_getFpac fac).bind fun _ => .ite (keeps_setFpResult fac _) (keeps_freeResult fac _)

theorem keeps_fpDivide (p : Prec) (fac : AcNo) (b : QWord) : Keeps (fpDivide p fac b) :=
  (keeps_getFpac fac).bind fun _ => .ite (.ite (keeps_raise _) (keeps_setFpResult fac _))
    ((keeps_freeResult fac _).seq (.ite (keeps_raise _) (.pure ())))

theorem keeps_scratchUp : ∀ (n : Nat) (a : Addr), Keeps (scratchUp n a)
  | 0, _ => .pure ()
  | n + 1, _ => .ite (keeps_scratchUp n _)
    ((keeps_drawFree 16).bind fun _ => (keeps_memWrite _ _).seq (keeps_scratchUp n _))

theorem keeps_scratch (n : Nat) : Keeps (scratch n) := (keeps_memRead _).bind fun _ => keeps_scratchUp n _

theorem keeps_fpRegReg (p : Prec) (op : QWord → QWord → FpResult) (facs facd : AcNo) :
    Keeps (fpRegReg p op facs facd) := (keeps_getFpac facs).bind (keeps_fpArith p op facd)

theorem keeps_fpMemReg (p : Prec) (op : QWord → QWord → FpResult) (fac : AcNo) (ea : ExtAddr) :
    Keeps (fpMemReg p op fac ea) := (keeps_extEa ea).bind fun e => (keeps_memFp p e).bind (keeps_fpArith p op fac)

theorem keeps_fpUpdate (fac : AcNo) (g : State → QWord → QWord) : Keeps (fpUpdate fac g) :=
  Keeps.get.bind fun _ => (keeps_setResult fac _).seq (keeps_fpCheck 1)

theorem keeps_fpSkip (c : Fpsr → Bool) : Keeps (fpSkip c) := Keeps.get.bind fun _ => keeps_skipIf 1 _

/-- An arithmetic instruction between accumulators, with its check. -/
theorem keeps_fpRegReg_check (p : Prec) (op : QWord → QWord → FpResult) (facs facd : AcNo) :
    Keeps (fpRegReg p op facs facd >>= fun _ => fpCheck 1) := (keeps_fpRegReg p op facs facd).seq (keeps_fpCheck 1)

/-- An arithmetic instruction with a memory operand, with its check. -/
theorem keeps_fpMemReg_check (p : Prec) (op : QWord → QWord → FpResult) (fac : AcNo) (ea : ExtAddr) :
    Keeps (fpMemReg p op fac ea >>= fun _ => fpCheck 2) := (keeps_fpMemReg p op fac ea).seq (keeps_fpCheck 2)

/-! ## Floating-point instructions -/

theorem execFlds_sound (fac : AcNo) (ea : ExtAddr) : ExecSound (execFlds fac ea) :=
  Keeps.runInstr <| (keeps_extEa ea).bind fun e => (keeps_memFp .single e).bind fun v =>
    (keeps_setFpac fac v).seq (keeps_advance 2)

theorem execFldd_sound (fac : AcNo) (ea : ExtAddr) : ExecSound (execFldd fac ea) :=
  Keeps.runInstr <| (keeps_extEa ea).bind fun e => (keeps_memFp .double e).bind fun v =>
    (keeps_setFpac fac v).seq (keeps_advance 2)

theorem execFsts_sound (fac : AcNo) (ea : ExtAddr) : ExecSound (execFsts fac ea) :=
  Keeps.runInstr <| (keeps_extEa ea).bind fun e => (keeps_getFpac fac).bind fun _ =>
    (keeps_memWrite e _).seq <| (keeps_memWrite _ _).seq (keeps_advance 2)

theorem execFstd_sound (fac : AcNo) (ea : ExtAddr) : ExecSound (execFstd fac ea) :=
  Keeps.runInstr <| (keeps_extEa ea).bind fun e => (keeps_getFpac fac).bind fun _ =>
    (keeps_memWrite e _).seq <| (keeps_memWrite _ _).seq <| (keeps_memWrite _ _).seq <| (keeps_memWrite _ _).seq
      (keeps_advance 2)

theorem execFlas_sound (ac fac : AcNo) : ExecSound (execFlas ac fac) :=
  Keeps.runInstr <| (keeps_getAc ac).bind fun _ => (keeps_setResult fac _).seq (keeps_advance 1)

theorem execFlmd_sound (fac : AcNo) (ea : ExtAddr) : ExecSound (execFlmd fac ea) :=
  Keeps.runInstr <| (keeps_extEa ea).bind fun e => (keeps_memRead e).bind fun _ => (keeps_memRead _).bind fun _ =>
    (keeps_setResult fac _).seq (keeps_advance 2)

theorem execFfas_sound (ac fac : AcNo) : ExecSound (execFfas ac fac) :=
  Keeps.runInstr <| (keeps_getFpac fac).bind fun _ => .ite
    ((keeps_raise _).seq <| (keeps_setAc ac _).seq (keeps_fpCheck 1))
    ((keeps_drawFree 16).bind fun _ => (keeps_setAc ac _).seq <| (keeps_freeErr _).seq (keeps_fpCheck 1))

theorem keeps_memWritePair (e : Addr) (v : DWord) : Keeps (memWritePair e v) :=
  (keeps_memWrite e _).seq (keeps_memWrite _ _)

theorem execFfmd_sound (fac : AcNo) (ea : ExtAddr) : ExecSound (execFfmd fac ea) :=
  Keeps.runInstr <| (keeps_extEa ea).bind fun e => (keeps_getFpac fac).bind fun _ => .ite
    ((keeps_raise _).seq <| (keeps_memWritePair e _).seq <| (keeps_modifyFpsr _).seq (keeps_fpCheck 2))
    ((keeps_drawFree 32).bind fun _ => (keeps_freeErr _).seq <| (keeps_memWritePair e _).seq <|
      keeps_freeZN.seq (keeps_fpCheck 2))

theorem execFmov_sound (facs facd : AcNo) : ExecSound (execFmov facs facd) :=
  Keeps.runInstr <| (keeps_getFpac facs).bind fun _ => (keeps_setResult facd _).seq (keeps_fpCheck 1)

theorem execFas_sound (facs facd : AcNo) : ExecSound (execFas facs facd) :=
  (keeps_fpRegReg_check _ _ facs facd).runInstr

theorem execFad_sound (facs facd : AcNo) : ExecSound (execFad facs facd) :=
  (keeps_fpRegReg_check _ _ facs facd).runInstr

theorem execFss_sound (facs facd : AcNo) : ExecSound (execFss facs facd) :=
  (keeps_fpRegReg_check _ _ facs facd).runInstr

theorem execFsd_sound (facs facd : AcNo) : ExecSound (execFsd facs facd) :=
  (keeps_fpRegReg_check _ _ facs facd).runInstr

theorem execFms_sound (facs facd : AcNo) : ExecSound (execFms facs facd) :=
  (keeps_fpRegReg_check _ _ facs facd).runInstr

theorem execFams_sound (fac : AcNo) (ea : ExtAddr) : ExecSound (execFams fac ea) :=
  (keeps_fpMemReg_check _ _ fac ea).runInstr

theorem execFamd_sound (fac : AcNo) (ea : ExtAddr) : ExecSound (execFamd fac ea) :=
  (keeps_fpMemReg_check _ _ fac ea).runInstr

theorem execFsms_sound (fac : AcNo) (ea : ExtAddr) : ExecSound (execFsms fac ea) :=
  (keeps_fpMemReg_check _ _ fac ea).runInstr

theorem execFsmd_sound (fac : AcNo) (ea : ExtAddr) : ExecSound (execFsmd fac ea) :=
  (keeps_fpMemReg_check _ _ fac ea).runInstr

theorem execFmms_sound (fac : AcNo) (ea : ExtAddr) : ExecSound (execFmms fac ea) :=
  (keeps_fpMemReg_check _ _ fac ea).runInstr


theorem execFmd_sound (facs facd : AcNo) : ExecSound (execFmd facs facd) :=
  Keeps.runInstr <| (keeps_fpRegReg _ _ facs facd).seq <| (keeps_scratch 4).seq (keeps_fpCheck 1)

theorem execFmmd_sound (fac : AcNo) (ea : ExtAddr) : ExecSound (execFmmd fac ea) :=
  Keeps.runInstr <| (keeps_fpMemReg _ _ fac ea).seq <| (keeps_scratch 4).seq (keeps_fpCheck 2)

theorem execFds_sound (facs facd : AcNo) : ExecSound (execFds facs facd) :=
  Keeps.runInstr <| (keeps_getFpac facs).bind fun _ => (keeps_fpDivide _ facd _).seq <|
    (keeps_scratch 6).seq (keeps_fpCheck 1)

theorem execFdd_sound (facs facd : AcNo) : ExecSound (execFdd facs facd) :=
  Keeps.runInstr <| (keeps_getFpac facs).bind fun _ => (keeps_fpDivide _ facd _).seq <|
    (keeps_scratch 14).seq (keeps_fpCheck 1)

theorem execFdms_sound (fac : AcNo) (ea : ExtAddr) : ExecSound (execFdms fac ea) :=
  Keeps.runInstr <| (keeps_extEa ea).bind fun e => (keeps_memFp .single e).bind fun b => (keeps_getFpac fac).bind fun _ =>
    (keeps_setFpac fac _).seq <| (keeps_fpDivide _ fac b).seq <| (keeps_scratch 6).seq (keeps_fpCheck 2)

theorem execFdmd_sound (fac : AcNo) (ea : ExtAddr) : ExecSound (execFdmd fac ea) :=
  Keeps.runInstr <| (keeps_extEa ea).bind fun e => (keeps_memFp .double e).bind fun b =>
    (keeps_fpDivide _ fac b).seq <| (keeps_scratch 14).seq (keeps_fpCheck 2)

theorem execFnom_sound (fac : AcNo) : ExecSound (execFnom fac) :=
  Keeps.runInstr <| (keeps_getFpac fac).bind fun _ => (keeps_setFpResult fac _).seq (keeps_advance 1)

theorem execFrh_sound (fac : AcNo) : ExecSound (execFrh fac) :=
  Keeps.runInstr <| (keeps_getFpac fac).bind fun _ => (keeps_setAc 0 _).seq (keeps_advance 1)

theorem execFab_sound (fac : AcNo) : ExecSound (execFab fac) := (keeps_fpUpdate fac _).runInstr

theorem execFneg_sound (fac : AcNo) : ExecSound (execFneg fac) := (keeps_fpUpdate fac _).runInstr

theorem execFexp_sound (fac : AcNo) : ExecSound (execFexp fac) := (keeps_fpUpdate fac _).runInstr


theorem execFscal_sound (fac : AcNo) : ExecSound (execFscal fac) :=
  Keeps.runInstr <| (keeps_getFpac fac).bind fun _ => (keeps_getAc 0).bind fun _ =>
    (keeps_raise _).seq <| (keeps_setResult fac _).seq (keeps_fpCheck 1)

theorem execFint_sound (fac : AcNo) : ExecSound (execFint fac) :=
  Keeps.runInstr <| (keeps_getFpac fac).bind fun _ => .ite
    ((keeps_setResult fac _).seq (keeps_fpCheck 1)) ((keeps_freeResult fac _).seq (keeps_fpCheck 1))

theorem execFhlv_sound (fac : AcNo) : ExecSound (execFhlv fac) :=
  Keeps.runInstr <| (keeps_getFpac fac).bind fun _ => .ite
    ((keeps_setFpResult fac _).seq (keeps_fpCheck 1)) ((keeps_freeResult fac _).seq (keeps_fpCheck 1))

theorem execFcmp_sound (facs facd : AcNo) : ExecSound (execFcmp facs facd) :=
  Keeps.runInstr <| (keeps_getFpac facs).bind fun _ => (keeps_getFpac facd).bind fun _ => .ite
    ((keeps_modifyFpsr _).seq (keeps_advance 1)) (keeps_freeZN.seq (keeps_advance 1))

theorem execFns_sound : ExecSound execFns := (keeps_fpSkip _).runInstr

theorem execFsa_sound : ExecSound execFsa := (keeps_fpSkip _).runInstr

theorem execFseq_sound : ExecSound execFseq := (keeps_fpSkip _).runInstr

theorem execFsne_sound : ExecSound execFsne := (keeps_fpSkip _).runInstr

theorem execFslt_sound : ExecSound execFslt := (keeps_fpSkip _).runInstr

theorem execFsge_sound : ExecSound execFsge := (keeps_fpSkip _).runInstr

theorem execFsle_sound : ExecSound execFsle := (keeps_fpSkip _).runInstr

theorem execFsgt_sound : ExecSound execFsgt := (keeps_fpSkip _).runInstr

theorem execFsnm_sound : ExecSound execFsnm := (keeps_fpSkip _).runInstr

theorem execFsnd_sound : ExecSound execFsnd := (keeps_fpSkip _).runInstr

theorem execFsnu_sound : ExecSound execFsnu := (keeps_fpSkip _).runInstr

theorem execFsnud_sound : ExecSound execFsnud := (keeps_fpSkip _).runInstr

theorem execFsno_sound : ExecSound execFsno := (keeps_fpSkip _).runInstr

theorem execFsnod_sound : ExecSound execFsnod := (keeps_fpSkip _).runInstr

theorem execFsnuo_sound : ExecSound execFsnuo := (keeps_fpSkip _).runInstr

theorem execFsner_sound : ExecSound execFsner := (keeps_fpSkip _).runInstr

theorem execFsst_sound (ea : ExtAddr) : ExecSound (execFsst ea) :=
  Keeps.runInstr <| (keeps_extEa ea).bind fun e => Keeps.get.bind fun _ =>
    (keeps_memWrite e _).seq <| (keeps_memWrite _ _).seq (keeps_advance 2)

theorem execFlst_sound (ea : ExtAddr) : ExecSound (execFlst ea) :=
  Keeps.runInstr <| (keeps_extEa ea).bind fun e => (keeps_memRead e).bind fun _ => (keeps_memRead _).bind fun _ =>
    Keeps.get.bind fun _ => (keeps_setFpsr _).seq (keeps_fpCheck 2)

theorem execFte_sound : ExecSound execFte := Keeps.runInstr <| (keeps_modifyFpsr _).seq (keeps_fpCheck 1)

theorem execFtd_sound : ExecSound execFtd := Keeps.runInstr <| (keeps_modifyFpsr _).seq (keeps_advance 1)

theorem execFcle_sound : ExecSound execFcle := Keeps.runInstr <| (keeps_modifyFpsr _).seq (keeps_advance 1)

/-! ## Program flow -/

theorem execJmp_sound (ea : ShortAddr) : ExecSound (execJmp ea) := Keeps.runInstr <| (keeps_shortEa ea).bind keeps_setPc

theorem execEjmp_sound (ea : ExtAddr) : ExecSound (execEjmp ea) := Keeps.runInstr <| (keeps_extEa ea).bind keeps_setPc

theorem keeps_jumpSub (len : Nat) (e : Addr) : Keeps (jumpSub len e) :=
  Keeps.get.bind fun _ => (keeps_setAc 3 _).seq (keeps_setPc e)

theorem execJsr_sound (ea : ShortAddr) : ExecSound (execJsr ea) :=
  Keeps.runInstr <| (keeps_shortEa ea).bind (keeps_jumpSub 1)

theorem execEjsr_sound (ea : ExtAddr) : ExecSound (execEjsr ea) :=
  Keeps.runInstr <| (keeps_extEa ea).bind (keeps_jumpSub 2)

theorem keeps_countAndSkip (len : Nat) (d : Word) (e : Addr) : Keeps (countAndSkip len d e) :=
  (keeps_memRead e).bind fun _ => (keeps_memWriteHeld e _).seq (keeps_skipIf len _)

theorem execIsz_sound (ea : ShortAddr) : ExecSound (execIsz ea) :=
  Keeps.runInstr <| (keeps_shortEa ea).bind (keeps_countAndSkip 1 1)

theorem execDsz_sound (ea : ShortAddr) : ExecSound (execDsz ea) :=
  Keeps.runInstr <| (keeps_shortEa ea).bind (keeps_countAndSkip 1 (-1))

theorem execEisz_sound (ea : ExtAddr) : ExecSound (execEisz ea) :=
  Keeps.runInstr <| (keeps_extEa ea).bind (keeps_countAndSkip 2 1)

theorem execEdsz_sound (ea : ExtAddr) : ExecSound (execEdsz ea) :=
  Keeps.runInstr <| (keeps_extEa ea).bind (keeps_countAndSkip 2 (-1))

theorem keeps_compareSkip (acs acd : AcNo) (c : Word → Word → Bool) : Keeps (compareSkip acs acd c) :=
  (keeps_getAc acs).bind fun _ => (keeps_getAc acd).bind fun _ => keeps_skipIf 1 _

theorem execSgt_sound (acs acd : AcNo) : ExecSound (execSgt acs acd) := (keeps_compareSkip acs acd _).runInstr

theorem execSge_sound (acs acd : AcNo) : ExecSound (execSge acs acd) := (keeps_compareSkip acs acd _).runInstr

theorem execClm_sound (acs acd : AcNo) : ExecSound (execClm acs acd) :=
  Keeps.runInstr <| Keeps.get.bind fun _ => (keeps_memRead _).bind fun _ => (keeps_memRead _).bind fun _ =>
    keeps_skipIf _ _

theorem execDspa_sound (ac : AcNo) (ea : ExtAddr) : ExecSound (execDspa ac ea) :=
  Keeps.runInstr <| (keeps_extEa ea).bind fun _ => (keeps_memRead _).bind fun _ => (keeps_memRead _).bind fun _ =>
    (keeps_getAc ac).bind fun _ => .ite
      ((keeps_memRead _).bind fun w => .ite (keeps_advance 2) ((keeps_resolveWord w).bind keeps_setPc))
      (keeps_advance 2)

theorem execSyc_sound (acs acd : AcNo) : ExecSound (execSyc acs acd) := by
  have hoff : Keeps (modify fun s : State => { s with mapOn := false }) := .modify fun _ => sound_mapOff
  have hhold : Keeps (modify fun s : State => { s with ionHold := .last }) := .modify fun _ h => h
  exact Keeps.runInstr <| hoff.seq <| .ite
    ((keeps_indirectAt 2).bind fun t => (keeps_setPc t).seq hhold)
    (Keeps.get.bind fun _ => (keeps_takeTrap 2 _).seq hhold)

theorem keeps_extendedOp (acs acd : AcNo) (n : Nat) : Keeps (extendedOp acs acd n) :=
  (keeps_memRead _).bind fun _ => Keeps.get.bind fun _ => (keeps_pushBlock _).seq <|
    (keeps_setAc 2 _).seq <| (keeps_setAc 3 _).seq <| (keeps_memRead _).bind fun _ =>
    (keeps_indirectAt _).bind keeps_finishAt

theorem execXop_sound (acs acd : AcNo) (op : BitVec 5) : ExecSound (execXop acs acd op) :=
  (keeps_extendedOp acs acd _).runInstr

theorem execXop1_sound (acs acd : AcNo) (op : BitVec 4) : ExecSound (execXop1 acs acd op) :=
  (keeps_extendedOp acs acd _).runInstr

end Sys2Proof.Laws
end

section
/-!
SUPPORT for the proof of O5: the instructions of the I/O system, of the CPU device and of the MAP.
-/

namespace Sys2Proof.Laws

set_option Elab.async false

open Sys2Proof.Machine

/-! ## Devices -/

theorem extCommand_code (f : IoFlag) (x : ExtDevice) : (extCommand f x).code = x.code := by
  cases f <;> rfl

theorem putBuffer_code (buf : OutBuffer) (v : Word) (x : ExtDevice) : (putBuffer buf v x).code = x.code := by
  cases buf <;> rfl

/-- An external controller changed, and the change sent out. -/
theorem setExt_endsIn {r : RunState} {x : Option Word} {s : State} (hs : Steady r x s) (d : DevCode)
    {g : ExtDevice → ExtDevice} (hg : ∀ y, (g y).code = y.code) (o : HostOutput) :
    EndsIn (Steady r x) ((set { s with ext := mapExt d g s.ext } >>= fun _ => emit o) s) := by
  obtain ⟨h, hr, hx⟩ := hs
  exact keeps_emit o r x _ ⟨sound_mapExt h d hg, hr, hx⟩

theorem keeps_extFlagCommand (f : IoFlag) (d : DevCode) : Keeps (extFlagCommand f d) := by
  refine fun r x => Leads.get fun s hs => ?_
  split
  · exact hs
  · cases findExt s d with
    | some y => exact setExt_endsIn hs d (extCommand_code f) _
    | none => exact hs

theorem keeps_writeBuffer (buf : OutBuffer) (d : DevCode) (v : Word) : Keeps (writeBuffer buf d v) := by
  refine fun r x => Leads.get fun s hs => ?_
  split
  · exact hs
  · cases findExt s d with
    | some y => exact setExt_endsIn hs d (putBuffer_code buf v) _
    | none => exact hs

theorem keeps_readBuffer (buf : OutBuffer) (d : DevCode) : Keeps (readBuffer buf d) := by
  refine Keeps.get.bind fun s => .ite (keeps_drawFree 16) ?_
  split
  · cases buf <;> exact .pure _
  · exact .pure _

theorem keeps_flagCommand (f : IoFlag) (d : DevCode) : Keeps (flagCommand f d) :=
  .ite (.modify fun _ h => h) <| .ite (.modify fun _ h => h) <| .ite (.modify fun _ h => h) <|
    .ite (.modify fun _ h => h) <| .ite (.modify fun _ h => h) <| .ite (.pure ()) (keeps_extFlagCommand f d)

theorem keeps_ioProtect : Keeps ioProtect := Keeps.get.bind fun _ => .ite (.stop _) (.pure ())

theorem keeps_ioInstr {transfer command : M Unit} (ht : Keeps transfer) (hc : Keeps command) :
    Keeps (ioInstr transfer command) := keeps_ioProtect.seq <| ht.seq <| hc.seq (keeps_advance 1)

theorem keeps_dataIn (buf : OutBuffer) (ac : AcNo) (d : DevCode) : Keeps (dataIn buf ac d) :=
  (keeps_readBuffer buf d).bind (keeps_setAc ac)

theorem keeps_dataOut (buf : OutBuffer) (ac : AcNo) (d : DevCode) : Keeps (dataOut buf ac d) :=
  (keeps_getAc ac).bind (keeps_writeBuffer buf d)

/-- An accumulator receives a word read off the state. -/
theorem keeps_setAc_read (ac : AcNo) (g : State → Word) : Keeps (do let s ← get; setAc ac (g s)) :=
  Keeps.get.bind fun _ => keeps_setAc ac _

theorem execSkp_sound (t : SkipTest) (dev : DevCode) : ExecSound (execSkp t dev) :=
  Keeps.runInstr <| keeps_ioProtect.seq <| Keeps.get.bind fun _ => keeps_skipIf 1 _

theorem execDis_sound (ac : AcNo) (f : IoFlag) (dev : DevCode) : ExecSound (execDis ac f dev) :=
  Keeps.runInstr <| keeps_ioProtect.seq <| Keeps.get.bind fun _ => (keeps_setAc ac _).seq (keeps_advance 1)

/-! ## The devices on the processor board -/

theorem execDiaTti_sound (ac : AcNo) (f : IoFlag) : ExecSound (execDiaTti ac f) :=
  (keeps_ioInstr (keeps_setAc_read ac _) (keeps_flagCommand f _)).runInstr

theorem execDiaPit_sound (ac : AcNo) (f : IoFlag) : ExecSound (execDiaPit ac f) :=
  (keeps_ioInstr (keeps_setAc_read ac _) (keeps_flagCommand f _)).runInstr

theorem execDoaTto_sound (ac : AcNo) (f : IoFlag) : ExecSound (execDoaTto ac f) := by
  have hbuf : ∀ v : Word, Keeps (modify fun s : State => { s with tto := { s.tto with tbuf := lowByte v } }) :=
    fun _ => .modify fun _ h => h
  exact Keeps.runInstr <| keeps_ioInstr
    ((keeps_getAc ac).bind fun v => (hbuf v).seq (.ite (keeps_emit _) (.pure ()))) (keeps_flagCommand f _)

theorem execDoaRtc_sound (ac : AcNo) (f : IoFlag) : ExecSound (execDoaRtc ac f) :=
  Keeps.runInstr <| keeps_ioInstr ((keeps_getAc ac).bind fun _ => .modify fun _ h => h) (keeps_flagCommand f _)

theorem execDoaPit_sound (ac : AcNo) (f : IoFlag) : ExecSound (execDoaPit ac f) :=
  Keeps.runInstr <| keeps_ioInstr ((keeps_getAc ac).bind fun _ => .modify fun _ h => h) (keeps_flagCommand f _)

theorem execDoaErcc_sound (ac : AcNo) (f : IoFlag) : ExecSound (execDoaErcc ac f) :=
  Keeps.runInstr <| keeps_ioInstr ((keeps_getAc ac).bind fun _ => .modify fun _ h => h) (keeps_flagCommand f _)

theorem execDoaApl_sound (ac : AcNo) (f : IoFlag) : ExecSound (execDoaApl ac f) :=
  Keeps.runInstr <| keeps_ioInstr ((keeps_getAc ac).bind fun _ => .modify fun _ h => h) (keeps_flagCommand f _)

theorem keeps_erccAddr : Keeps erccAddr := Keeps.get.bind fun _ => .ite (.pure _) (keeps_drawFree 20)

theorem keeps_erccCode : Keeps erccCode := Keeps.get.bind fun _ => .ite (.pure _) (keeps_drawFree 6)

theorem execDiaErcc_sound (ac : AcNo) (f : IoFlag) : ExecSound (execDiaErcc ac f) :=
  Keeps.runInstr <| keeps_ioInstr (keeps_erccAddr.bind fun _ => keeps_setAc ac _) (keeps_flagCommand f _)

theorem execDibErcc_sound (ac : AcNo) (f : IoFlag) : ExecSound (execDibErcc ac f) :=
  Keeps.runInstr <| keeps_ioInstr (keeps_erccCode.bind fun _ => keeps_erccAddr.bind fun _ => keeps_setAc ac _)
    (keeps_flagCommand f _)

theorem execDiaApl_sound (ac : AcNo) (f : IoFlag) : ExecSound (execDiaApl ac f) :=
  Keeps.runInstr <| keeps_ioInstr (Keeps.get.bind fun _ => (keeps_drawFree 7).bind fun _ => keeps_setAc ac _)
    (keeps_flagCommand f _)

/-! ## The CPU -/

theorem cpuCommand_runState (f : IoFlag) (s : State) : (cpuCommand f s).runState = s.runState := by
  cases f <;> rfl

theorem cpuCommand_xct (f : IoFlag) (s : State) : (cpuCommand f s).xct = s.xct := by
  cases f <;> rfl

theorem keeps_cpuFlag (f : IoFlag) : Keeps (cpuFlag f) :=
  .modify (fun _ h => sound_cpuCommand h f) (cpuCommand_runState f) (cpuCommand_xct f)

theorem execReads_sound (ac : AcNo) (f : IoFlag) : ExecSound (execReads ac f) :=
  (keeps_ioInstr (keeps_setAc_read ac _) (keeps_cpuFlag f)).runInstr

theorem execInta_sound (ac : AcNo) (f : IoFlag) : ExecSound (execInta ac f) :=
  (keeps_ioInstr (keeps_setAc_read ac _) (keeps_cpuFlag f)).runInstr

theorem execDoapCpu_sound (ac : AcNo) : ExecSound (execDoapCpu ac) :=
  Keeps.runInstr <| keeps_ioInstr ((keeps_getAc ac).bind fun _ => .ite (.stop _) (.pure ())) (keeps_cpuFlag .pulse)

theorem execMsko_sound (ac : AcNo) (f : IoFlag) : ExecSound (execMsko ac f) :=
  Keeps.runInstr <| keeps_ioInstr ((keeps_getAc ac).bind fun _ => .modify fun _ h => h) (keeps_cpuFlag f)

theorem execIorst_sound (ac : AcNo) (f : IoFlag) : ExecSound (execIorst ac f) :=
  Keeps.runInstr <| keeps_ioInstr (.modify fun _ => sound_ioReset) (keeps_cpuFlag f)

theorem sound_withRunState {s : State} (h : Sound s) (hx : s.xct = none) (r : RunState) :
    Sound { s with runState := r } := by
  obtain ⟨hwf, hmem, hfaults, hmap, -, hext⟩ := h
  refine ⟨hwf, hmem, hfaults, hmap, ?_, hext⟩
  simp [xctSound, hx]

/-- A Halt leaves no word of XCT: it is itself the instruction XCT took, if one was (46_io R527). -/
theorem sound_haltWith {s : State} (h : Sound s) (hx : s.xct = none) : Sound (haltWith s) := by
  unfold haltWith
  simp only
  split
  · exact sound_enterConsole (s := { s with con := { s.con with hlt := true } }) h
  · exact sound_withRunState (s := { s with con := { s.con with hlt := true } }) h hx .halted

theorem execHalta_sound (ac : AcNo) (f : IoFlag) : ExecSound (execHalta ac f) :=
  Leads.execSound <| (keeps_ioInstr (.pure ()) (keeps_cpuFlag f)).leads.bind fun _ =>
    .modify fun _ hs => sound_haltWith hs.sound hs.2.2

theorem execSkpCpu_sound (t : SkipTest) : ExecSound (execSkpCpu t) :=
  Keeps.runInstr <| keeps_ioProtect.seq <| Keeps.get.bind fun _ => keeps_skipIf 1 _

theorem execDisCpu_sound (ac : AcNo) (f : IoFlag) : ExecSound (execDisCpu ac f) :=
  Keeps.runInstr <| keeps_ioProtect.seq <| Keeps.get.bind fun _ => (keeps_drawFree 1).bind fun _ =>
    (keeps_drawFree 1).bind fun _ => (keeps_setAc ac _).seq (keeps_advance 1)

theorem keeps_vctNewStack : Keeps vctNewStack :=
  (keeps_memRead _).bind fun _ => (keeps_memRead _).bind fun _ => (keeps_memRead _).bind fun _ =>
    (keeps_memRead _).bind fun _ => (keeps_memRead _).bind fun _ => (keeps_memWrite _ _).seq <|
    (keeps_memRead _).bind fun _ => (keeps_memWrite _ _).seq <| (keeps_memRead _).bind fun _ => (keeps_memWrite _ _).seq <|
    (keeps_push _).seq <| (keeps_push _).seq <| (keeps_push _).seq (keeps_push _)

theorem keeps_vctBlock : Keeps vctBlock :=
  (keeps_pushAc 0).seq <| (keeps_pushAc 1).seq <| (keeps_pushAc 2).seq <| (keeps_pushAc 3).seq <|
    (keeps_memRead _).bind fun _ => Keeps.get.bind fun _ => keeps_push _

theorem keeps_vctEnter (bits : Word) (handler : Addr) : Keeps (vctEnter bits handler) := by
  have hmask : ∀ v : Word, Keeps (modify fun s : State => { s with mask := v }) := fun _ => .modify fun _ h => h
  exact (keeps_memRead 5).bind fun m => (keeps_push m).seq <| (keeps_memWrite 5 _).seq <| (hmask _).seq <|
    (keeps_cpuFlag .start).seq (keeps_finishAt handler)

theorem execVct_sound (stackChange : Bool) (table : Addr) : ExecSound (execVct stackChange table) :=
  Keeps.runInstr <| keeps_ioProtect.seq <| Keeps.get.bind fun _ => (keeps_cpuFlag .pulse).seq <|
    (keeps_memRead _).bind fun _ => .ite
      ((keeps_memRead _).bind fun _ => (keeps_memRead _).bind fun _ =>
        have henter := keeps_vctEnter _ _
        have hblock := Keeps.ite (keeps_vctBlock.seq henter) henter
        .ite (keeps_vctNewStack.seq hblock) hblock)
      (keeps_setPc _)

/-! ## The MAP -/

theorem keeps_setSelEntry (sel : State → BitVec 3) (p : BitVec 5) (e : MapEntry) :
    Keeps (modify fun s => setSelEntry s (sel s) p e) := by
  refine .modify (fun s h => ?_) (fun s => ?_) (fun s => ?_)
  · unfold setSelEntry
    split <;> exact h
  · unfold setSelEntry
    split <;> rfl
  · unfold setSelEntry
    split <;> rfl

theorem keeps_loadEntry (w : Word) : Keeps (loadEntry w) :=
  (keeps_getAc 0).bind fun _ => .ite (keeps_setSelEntry _ _ _) <|
    keeps_drawBit.bind fun _ => (keeps_drawFree 10).bind fun _ => keeps_setSelEntry _ _ _

theorem keeps_lmpWord : Keeps lmpWord :=
  (keeps_getAc 2).bind fun _ => (keeps_memRead _).bind fun w => (keeps_loadEntry w).seq <|
    (keeps_getAc 1).bind fun _ => (keeps_setAc 1 _).seq (keeps_setAc 2 _)

theorem lmpLoop_leads {r : RunState} {x : Option Word} {again : M Unit} (hagain : Leads (Steady r x) again Sound) :
    ∀ fuel : Nat, Leads (Steady r x) (lmpLoop again fuel) Sound
  | 0 => (keeps_advance 1).toSound
  | fuel + 1 => (keeps_getAc 1).leads.bind fun _ => .ite (keeps_advance 1).toSound <|
      keeps_lmpWord.leads.bind fun _ => Keeps.get.leads.bind fun _ =>
        .ite (keeps_advance 1).toSound (.ite (lmpLoop_leads hagain fuel) hagain)

theorem lmpStep_leads {r : RunState} {x : Option Word} {again : M Unit} (hagain : Leads (Steady r x) again Sound) :
    Leads (Steady r x) (lmpStep again) Sound :=
  Keeps.get.leads.bind fun _ => .ite (Keeps.stop _).toSound <|
    (keeps_resolveAc 2).leads.bind fun _ => lmpLoop_leads hagain 65536

theorem execLmp_sound : ExecSound execLmp := (lmpStep_leads (Keeps.pure ()).toSound).execSound

theorem execLmpUnder_sound {w : Word} (hw : isHeldWord w = true) : ExecSound (execLmpUnder w) :=
  (lmpStep_leads (keepWord_leads hw)).execSound

theorem sound_niopAction {s : State} (h : Sound s) : Sound (niopAction s) := by
  unfold niopAction
  split
  · exact sound_mapOff h
  · exact h

theorem niopAction_runState (s : State) : (niopAction s).runState = s.runState := by
  unfold niopAction
  split <;> rfl

theorem niopAction_xct (s : State) : (niopAction s).xct = s.xct := by
  unfold niopAction
  split <;> rfl

theorem keeps_mapFlag (f : IoFlag) : Keeps (mapFlag f) := by
  cases f with
  | none | start | clear => exact .pure ()
  | pulse => exact .modify (fun _ => sound_niopAction) niopAction_runState niopAction_xct

theorem execDiaMap_sound (ac : AcNo) (f : IoFlag) : ExecSound (execDiaMap ac f) :=
  (keeps_ioInstr (keeps_setAc_read ac _) (keeps_mapFlag f)).runInstr

theorem execDicMap_sound (ac : AcNo) (f : IoFlag) : ExecSound (execDicMap ac f) :=
  (keeps_ioInstr (keeps_setAc_read ac _) (keeps_mapFlag f)).runInstr

/-- DOA MAP leaves the map off, whether or not its enable waits (47_map R593, R601). -/
theorem execDoaMap_sound (ac : AcNo) (f : IoFlag) : ExecSound (execDoaMap ac f) := by
  have hload : ∀ v : Word, Keeps (modify (loadMapStatus v)) := fun v =>
    .modify fun s h => sound_withMap (on := false) (pending := v.getMsbD 15) h (Bool.false_and _)
  exact Keeps.runInstr <| keeps_ioInstr ((keeps_getAc ac).bind hload) (keeps_mapFlag f)

theorem execDobMap_sound (ac : AcNo) (f : IoFlag) : ExecSound (execDobMap ac f) :=
  Keeps.runInstr <| keeps_ioInstr ((keeps_getAc ac).bind fun _ => .modify fun _ h => h) (keeps_mapFlag f)

theorem execDocMap_sound (ac : AcNo) (f : IoFlag) : ExecSound (execDocMap ac f) :=
  Keeps.runInstr <| keeps_ioInstr ((keeps_getAc ac).bind fun _ => .modify fun _ h => h) (keeps_mapFlag f)

theorem execDibMap_sound (ac : AcNo) (f : IoFlag) : ExecSound (execDibMap ac f) :=
  Keeps.runInstr <| keeps_ioInstr ((keeps_drawFree 16).bind (keeps_setAc ac)) (keeps_mapFlag f)

theorem execDisMap_sound (ac : AcNo) (f : IoFlag) : ExecSound (execDisMap ac f) :=
  Keeps.runInstr <| keeps_ioProtect.seq <| (keeps_drawFree 16).bind fun v => (keeps_setAc ac v).seq (keeps_advance 1)

end Sys2Proof.Laws
end

section
/-!
SUPPORT for the proof of O5: the words XCT may keep are decoded the same in every mode and whatever word follows them.
-/

namespace Sys2Proof.Laws

set_option Elab.async false

open Sys2Proof.Machine

/-- The instructions whose word XCT may keep: an XCT, and BLM and LMP, which may have items left (45_program_flow R480). -/
def heldByXct (i : Instr) : Bool :=
  match i with
  | .xct _ | .blm | .lmp => true
  | _ => false

/-! ## The parts of the decoder without such an instruction -/

theorem decodeJump_not_held (w : Word) : heldByXct (decodeJump w) = false := by
  unfold decodeJump
  split <;> rfl

theorem decodeAlc_not_held (w : Word) : heldByXct (decodeAlc w) = false := by
  unfold decodeAlc
  split <;> rfl

theorem decodeIoCpu_not_held (w : Word) : heldByXct (decodeIoCpu w) = false := by
  unfold decodeIoCpu
  dsimp only
  split
  · split <;> rfl
  all_goals try rfl
  all_goals split <;> rfl

theorem decodeIoMap_not_held (w : Word) : heldByXct (decodeIoMap w) = false := by
  unfold decodeIoMap
  dsimp only
  split
  all_goals try rfl
  all_goals split <;> rfl

theorem decodeIoGeneric_not_held (w : Word) : heldByXct (decodeIoGeneric w) = false := by
  unfold decodeIoGeneric
  dsimp only
  split
  all_goals try rfl
  split <;> rfl

theorem decodeIoBoard_not_held {w : Word} {i : Instr} (h : decodeIoBoard w = some i) : heldByXct i = false := by
  unfold decodeIoBoard at h
  dsimp only at h
  split at h
  case h_7 => cases h
  all_goals split at h <;> cases h <;> rfl

theorem decodeIo_not_held (w w2 : Word) : heldByXct (decodeIo w w2) = false := by
  unfold decodeIo
  split
  · rfl
  · split
    · exact decodeIoCpu_not_held w
    · exact decodeIoMap_not_held w
    · split
      · next hboard => exact decodeIoBoard_not_held hboard
      · exact decodeIoGeneric_not_held w

theorem decodeFloatSkip_not_held (w : Word) : heldByXct (decodeFloatSkip w) = false := by
  unfold decodeFloatSkip
  split <;> rfl

theorem decodeFloatStatus_not_held {w w2 : Word} {i : Instr} (h : decodeFloatStatus w w2 = some i) :
    heldByXct i = false := by
  unfold decodeFloatStatus at h
  split at h
  · cases h
    rfl
  · cases h
    rfl
  · split at h <;> cases h <;> rfl

theorem decodeFloat_not_held {w w2 : Word} {i : Instr} (h : decodeFloat w w2 = some i) : heldByXct i = false := by
  unfold decodeFloat at h
  dsimp only at h
  split at h
  case h_27 =>
    cases h
    exact decodeFloatSkip_not_held w
  case h_28 => exact decodeFloatStatus_not_held h
  case h_25 | h_26 | h_31 => split at h <;> cases h <;> rfl
  case h_32 => cases h
  all_goals (cases h; rfl)

/-! ## The parts with one -/

theorem decodeNoOperand_of_held {w w2 : Word} {i : Instr} (h : decodeNoOperand w w2 = some i) (hi : heldByXct i = true)
    (v : Word) : decodeNoOperand w v = some i := by
  unfold decodeNoOperand at h ⊢
  split at h <;> cases h <;> first | rfl | cases hi

theorem decodeExt_of_held {w w2 : Word} {i : Instr} (h : decodeExt w w2 = some i) (hi : heldByXct i = true)
    (v : Word) : decodeExt w v = some i := by
  unfold decodeExt at h ⊢
  dsimp only at h ⊢
  split at h
  case h_28 => exact h
  case h_30 => exact decodeNoOperand_of_held h hi v
  case h_31 => cases h
  all_goals (cases h; cases hi)

theorem decodeGroup3_of_held {w w2 : Word} {i : Instr} (h : decodeGroup3 w w2 = some i) (hi : heldByXct i = true)
    (v : Word) : decodeGroup3 w v = some i := by
  unfold decodeGroup3 at h ⊢
  dsimp only at h ⊢
  split at h
  case h_3 => exact h
  case h_4 => split at h <;> cases h <;> cases hi
  all_goals (cases h; cases hi)

theorem decodeExtRef_of_held {w w2 : Word} {i : Instr} (h : decodeExtRef w w2 = some i) (hi : heldByXct i = true)
    (v : Word) : decodeExtRef w v = some i := by
  unfold decodeExtRef at h ⊢
  dsimp only at h ⊢
  split at h
  case h_4 => exact decodeGroup3_of_held h hi v
  case h_3 =>
    split at h
    · cases h
      cases hi
    · cases h
  case h_2 => split at h <;> cases h <;> cases hi
  case h_1 =>
    split at h
    case h_1 => split at h <;> cases h <;> cases hi
    all_goals (cases h; cases hi)

/-- A word XCT may keep decodes to its instruction in unmapped mode too, and with no word after it. -/
theorem decodeWords_of_held {lef : Bool} {w w2 : Word} {i : Instr} (h : decodeWords lef w w2 = some i)
    (hi : heldByXct i = true) : decodeWords false w 0 = some i := by
  have hno : ∀ {j : Instr}, heldByXct j = false → some j = some i → False := by
    rintro j hj ⟨⟩
    exact absurd hi (by rw [hj]; decide)
  unfold decodeWords at h ⊢
  split at h
  · exact (hno (decodeJump_not_held w) h).elim
  · exact (hno rfl h).elim
  · exact (hno rfl h).elim
  · exfalso
    split at h
    · exact hno rfl h
    · exact hno (decodeIo_not_held w w2) h
  · split at h
    · cases h
    · split at h
      · exact decodeExt_of_held h hi 0
      · exact (hno rfl h).elim
      · exact absurd (decodeFloat_not_held h) (by rw [hi]; decide)
      · split at h
        · exact (hno rfl h).elim
        · next hbit => rw [if_neg hbit]; exact decodeExtRef_of_held h hi 0
    · exact (hno (decodeAlc_not_held w) h).elim

/-- A word that decodes to an instruction XCT goes on with is one XCT may keep (45_program_flow R480). -/
theorem isHeldWord_of_decode {lef : Bool} {w w2 : Word} {i : Instr} (h : decodeWords lef w w2 = some i)
    (hi : heldByXct i = true) : isHeldWord w = true := by
  unfold isHeldWord
  rw [decodeWords_of_held h hi]
  unfold heldByXct at hi
  split at hi
  · rfl
  · rfl
  · rfl
  · cases hi

end Sys2Proof.Laws
end

section
/-!
SUPPORT for the proof of O5: every instruction, XCT among them, leaves a sound state.
-/

namespace Sys2Proof.Laws

set_option Elab.async false

open Sys2Proof.Machine

/-! ## Every instruction but XCT -/

theorem exec_sound_of_ne_xct (i : Instr) (hx : ∀ ac, i ≠ .xct ac) : ExecSound (exec i) := by
  cases i with
  | jmp ea => exact execJmp_sound ea
  | jsr ea => exact execJsr_sound ea
  | isz ea => exact execIsz_sound ea
  | dsz ea => exact execDsz_sound ea
  | lda ac ea => exact execLda_sound ac ea
  | sta ac ea => exact execSta_sound ac ea
  | lef ac ea => exact execLef_sound ac ea
  | com o => exact (keeps_alc fnCom o).runInstr
  | neg o => exact (keeps_alc fnNeg o).runInstr
  | mov o => exact (keeps_alc fnMov o).runInstr
  | inc o => exact (keeps_alc fnInc o).runInstr
  | adc o => exact (keeps_alc fnAdc o).runInstr
  | sub o => exact (keeps_alc fnSub o).runInstr
  | add o => exact (keeps_alc fnAdd o).runInstr
  | and o => exact (keeps_alc fnAnd o).runInstr
  | adi n ac => exact execAdi_sound n ac
  | sbi n ac => exact execSbi_sound n ac
  | dad acs acd => exact (keeps_decimal decimalAdd acs acd).runInstr
  | dsb acs acd => exact (keeps_decimal decimalSub acs acd).runInstr
  | ior acs acd => exact execIor_sound acs acd
  | xor acs acd => exact execXor_sound acs acd
  | anc acs acd => exact execAnc_sound acs acd
  | xch acs acd => exact execXch_sound acs acd
  | sgt acs acd => exact execSgt_sound acs acd
  | sge acs acd => exact execSge_sound acs acd
  | lsh acs acd => exact execLsh_sound acs acd
  | dlsh acs acd => exact execDlsh_sound acs acd
  | hxl n ac => exact execHxl_sound n ac
  | hxr n ac => exact execHxr_sound n ac
  | dhxl n ac => exact execDhxl_sound n ac
  | dhxr n ac => exact execDhxr_sound n ac
  | bto acs acd => exact execBto_sound acs acd
  | btz acs acd => exact execBtz_sound acs acd
  | szb acs acd => exact execSzb_sound acs acd
  | szbo acs acd => exact execSzbo_sound acs acd
  | lob acs acd => exact execLob_sound acs acd
  | lrb acs acd => exact execLrb_sound acs acd
  | cob acs acd => exact execCob_sound acs acd
  | ldb acs acd => exact execLdb_sound acs acd
  | stb acs acd => exact execStb_sound acs acd
  | psh acs acd => exact execPsh_sound acs acd
  | pop acs acd => exact execPop_sound acs acd
  | syc acs acd => exact execSyc_sound acs acd
  | lmp => exact execLmp_sound
  | pshr => exact execPshr_sound
  | popb => exact execPopb_sound
  | bam => exact execBam_sound
  | popj => exact execPopj_sound
  | rtn => exact execRtn_sound
  | blm => exact execBlm_sound
  | divx => exact execDivx_sound
  | mul => exact execMul_sound
  | muls => exact execMuls_sound
  | div => exact execDiv_sound
  | divs => exact execDivs_sound
  | save i => exact execSave_sound i
  | rstr => exact execRstr_sound
  | xop acs acd op => exact execXop_sound acs acd op
  | xop1 acs acd op => exact execXop1_sound acs acd op
  | ejmp ea => exact execEjmp_sound ea
  | ejsr ea => exact execEjsr_sound ea
  | eisz ea => exact execEisz_sound ea
  | edsz ea => exact execEdsz_sound ea
  | pshj ea => exact execPshj_sound ea
  | elda ac ea => exact execElda_sound ac ea
  | esta ac ea => exact execEsta_sound ac ea
  | elef ac ea => exact execElef_sound ac ea
  | eldb ac idx disp => exact execEldb_sound ac idx disp
  | estb ac idx disp => exact execEstb_sound ac idx disp
  | dspa ac ea => exact execDspa_sound ac ea
  | clm acs acd => exact execClm_sound acs acd
  | snb acs acd => exact execSnb_sound acs acd
  | msp ac => exact execMsp_sound ac
  | xct ac => exact absurd rfl (hx ac)
  | hlv ac => exact execHlv_sound ac
  | iori ac i => exact execIori_sound ac i
  | xori ac i => exact execXori_sound ac i
  | andi ac i => exact execAndi_sound ac i
  | addi ac i => exact execAddi_sound ac i
  | fas facs facd => exact execFas_sound facs facd
  | fad facs facd => exact execFad_sound facs facd
  | fss facs facd => exact execFss_sound facs facd
  | fsd facs facd => exact execFsd_sound facs facd
  | fms facs facd => exact execFms_sound facs facd
  | fmd facs facd => exact execFmd_sound facs facd
  | fds facs facd => exact execFds_sound facs facd
  | fdd facs facd => exact execFdd_sound facs facd
  | fams fac ea => exact execFams_sound fac ea
  | famd fac ea => exact execFamd_sound fac ea
  | fsms fac ea => exact execFsms_sound fac ea
  | fsmd fac ea => exact execFsmd_sound fac ea
  | fmms fac ea => exact execFmms_sound fac ea
  | fmmd fac ea => exact execFmmd_sound fac ea
  | fdms fac ea => exact execFdms_sound fac ea
  | fdmd fac ea => exact execFdmd_sound fac ea
  | flds fac ea => exact execFlds_sound fac ea
  | fldd fac ea => exact execFldd_sound fac ea
  | fsts fac ea => exact execFsts_sound fac ea
  | fstd fac ea => exact execFstd_sound fac ea
  | flmd fac ea => exact execFlmd_sound fac ea
  | ffmd fac ea => exact execFfmd_sound fac ea
  | flas ac fac => exact execFlas_sound ac fac
  | ffas ac fac => exact execFfas_sound ac fac
  | fnom fac => exact execFnom_sound fac
  | frh fac => exact execFrh_sound fac
  | fab fac => exact execFab_sound fac
  | fneg fac => exact execFneg_sound fac
  | fscal fac => exact execFscal_sound fac
  | fexp fac => exact execFexp_sound fac
  | fint fac => exact execFint_sound fac
  | fhlv fac => exact execFhlv_sound fac
  | fns => exact execFns_sound
  | fsa => exact execFsa_sound
  | fseq => exact execFseq_sound
  | fsne => exact execFsne_sound
  | fslt => exact execFslt_sound
  | fsge => exact execFsge_sound
  | fsle => exact execFsle_sound
  | fsgt => exact execFsgt_sound
  | fsnm => exact execFsnm_sound
  | fsnd => exact execFsnd_sound
  | fsnu => exact execFsnu_sound
  | fsnud => exact execFsnud_sound
  | fsno => exact execFsno_sound
  | fsnod => exact execFsnod_sound
  | fsnuo => exact execFsnuo_sound
  | fsner => exact execFsner_sound
  | fsst ea => exact execFsst_sound ea
  | flst ea => exact execFlst_sound ea
  | fte => exact execFte_sound
  | ftd => exact execFtd_sound
  | fcle => exact execFcle_sound
  | fpsh => exact execFpsh_sound
  | fpop => exact execFpop_sound
  | fcmp facs facd => exact execFcmp_sound facs facd
  | fmov facs facd => exact execFmov_sound facs facd
  | cmv => exact execCmv_sound
  | cmp => exact execCmp_sound
  | ctr => exact execCtr_sound
  | cmt => exact execCmt_sound
  | nio _ f dev => exact (keeps_ioInstr (.pure ()) (keeps_flagCommand f dev)).runInstr
  | dia ac f dev => exact (keeps_ioInstr (keeps_dataIn .a ac dev) (keeps_flagCommand f dev)).runInstr
  | doa ac f dev => exact (keeps_ioInstr (keeps_dataOut .a ac dev) (keeps_flagCommand f dev)).runInstr
  | dib ac f dev => exact (keeps_ioInstr (keeps_dataIn .b ac dev) (keeps_flagCommand f dev)).runInstr
  | dob ac f dev => exact (keeps_ioInstr (keeps_dataOut .b ac dev) (keeps_flagCommand f dev)).runInstr
  | dic ac f dev => exact (keeps_ioInstr (keeps_dataIn .c ac dev) (keeps_flagCommand f dev)).runInstr
  | doc ac f dev => exact (keeps_ioInstr (keeps_dataOut .c ac dev) (keeps_flagCommand f dev)).runInstr
  | skp t dev => exact execSkp_sound t dev
  | dis ac f dev => exact execDis_sound ac f dev
  | inten _ => exact (keeps_ioInstr (.pure ()) (keeps_cpuFlag .start)).runInstr
  | intds _ => exact (keeps_ioInstr (.pure ()) (keeps_cpuFlag .clear)).runInstr
  | nioCpu _ f => exact (keeps_ioInstr (.pure ()) (keeps_cpuFlag f)).runInstr
  | reads ac f => exact execReads_sound ac f
  | doaCpu _ f => exact (keeps_ioInstr (.pure ()) (keeps_cpuFlag f)).runInstr
  | doapCpu ac => exact execDoapCpu_sound ac
  | inta ac f => exact execInta_sound ac f
  | vct stackChange table => exact execVct_sound stackChange table
  | msko ac f => exact execMsko_sound ac f
  | iorst ac f => exact execIorst_sound ac f
  | halta ac f => exact execHalta_sound ac f
  | skpCpu t => exact execSkpCpu_sound t
  | disCpu ac f => exact execDisCpu_sound ac f
  | diaMap ac f => exact execDiaMap_sound ac f
  | doaMap ac f => exact execDoaMap_sound ac f
  | dobMap ac f => exact execDobMap_sound ac f
  | dicMap ac f => exact execDicMap_sound ac f
  | docMap ac f => exact execDocMap_sound ac f
  | niopMap _ => exact (keeps_ioInstr (.pure ()) (keeps_mapFlag .pulse)).runInstr
  | nioMap _ f => exact (keeps_ioInstr (.pure ()) (keeps_mapFlag f)).runInstr
  | dibMap ac f => exact execDibMap_sound ac f
  | disMap ac f => exact execDisMap_sound ac f
  | diaTti ac f => exact execDiaTti_sound ac f
  | doaTto ac f => exact execDoaTto_sound ac f
  | doaRtc ac f => exact execDoaRtc_sound ac f
  | diaPit ac f => exact execDiaPit_sound ac f
  | doaPit ac f => exact execDoaPit_sound ac f
  | doaErcc ac f => exact execDoaErcc_sound ac f
  | diaErcc ac f => exact execDiaErcc_sound ac f
  | dibErcc ac f => exact execDibErcc_sound ac f
  | diaApl ac f => exact execDiaApl_sound ac f
  | doaApl ac f => exact execDoaApl_sound ac f

/-! ## XCT -/

/-- The instructions XCT executes as the program would: all but those it goes on with and the five that are excluded
(45_program_flow R480). -/
def plainUnder (i : Instr) : Bool :=
  match i with
  | .xct _ | .blm | .lmp | .bam | .cmv | .cmp | .ctr | .cmt => false
  | _ => true

theorem execUnder_of_plain {i : Instr} (hi : plainUnder i = true) (w : Word) : execUnder w i = exec i := by
  cases i
  case xct | blm | lmp | bam | cmv | cmp | ctr | cmt => cases hi
  all_goals rfl

theorem execUnder_sound {w : Word} {i : Instr} (hw : heldByXct i = true → isHeldWord w = true) :
    ExecSound (execUnder w i) := by
  cases hi : plainUnder i with
  | true =>
    rw [execUnder_of_plain hi]
    refine exec_sound_of_ne_xct i ?_
    rintro ac rfl
    cases hi
  | false =>
    unfold plainUnder at hi
    split at hi
    · exact fun s hs => endsSound_next (sound_withXct hs.sound hs.2.1 (hw rfl))
    · exact execBlmUnder_sound (hw rfl)
    · exact execLmpUnder_sound (hw rfl)
    · exact fun _ _ => endsSound_refused _
    · exact fun _ _ => endsSound_refused _
    · exact fun _ _ => endsSound_refused _
    · exact fun _ _ => endsSound_refused _
    · exact fun _ _ => endsSound_refused _
    · cases hi

theorem keeps_secondWord (w : Word) : Keeps (secondWord w) :=
  Keeps.get.bind fun _ => .ite (keeps_memRead _) (.pure _)

theorem undefinedWord_sound : ExecSound undefinedWord :=
  Keeps.runInstr <| Keeps.get.bind fun _ => .ite
    ((keeps_memRead _).bind fun _ => .ite (keeps_advance 1) (keeps_takeTrap _ _)) (keeps_advance 1)

theorem execXct_sound (ac : AcNo) : ExecSound (execXct ac) := by
  intro s hs
  have hend := (keeps_secondWord (s.ac.get ac)).leads s hs
  unfold execXct
  cases hres : secondWord (s.ac.get ac) s with
  | error e s1 =>
    rw [hres] at hend
    exact endsSound_finish hend
  | ok w2 s1 =>
    rw [hres] at hend
    cases hdec : decodeWords (lefMode s) (s.ac.get ac) w2 with
    | none =>
      simp only [hdec]
      exact undefinedWord_sound s1 hend
    | some i =>
      simp only [hdec]
      exact execUnder_sound (isHeldWord_of_decode hdec) s1 hend

theorem exec_sound (i : Instr) : ExecSound (exec i) := by
  by_cases hx : ∃ ac, i = .xct ac
  · obtain ⟨ac, rfl⟩ := hx
    exact execXct_sound ac
  · exact exec_sound_of_ne_xct i fun ac hi => hx ⟨ac, hi⟩

/-- An instruction of a word XCT took, or of one from memory (45_program_flow R480). -/
theorem execHeld_sound {held : Option Word} (hheld : ∀ w, held = some w → isHeldWord w = true) (i : Instr) :
    ExecSound (execHeld held i) := by
  intro s hs
  unfold execHeld
  split
  · exact execBlmUnder_sound (hheld _ rfl) s hs
  · exact execLmpUnder_sound (hheld _ rfl) s hs
  · exact exec_sound i s hs

end Sys2Proof.Laws
end

section
/-!
SUPPORT for the proof of O5: the host inputs. One of them may come in any run state, so that these go from any sound state
to a sound one.
-/

namespace Sys2Proof.Laws

set_option Elab.async false

open Sys2Proof.Machine

/-! ## Memory destroyed or in error -/

theorem fillMemory_endsIn {r : RunState} {x : Option Word} : ∀ (n : Nat) {s : State}, Steady r x s →
    n ≤ s.cfg.boards.words → EndsIn (Steady r x) (fillMemory n s)
  | 0, _, hs, _ => hs
  | n + 1, s, ⟨h, hr, hx⟩, hn => by
    have hstore := sound_storeWord (s := { s with freeIdx := s.freeIdx + 1 }) h hn
      ((Config.free64 s.freeIdx).setWidth 16)
    exact fillMemory_endsIn n ⟨hstore, hr, hx⟩ (Nat.le_of_succ_le hn)

theorem keeps_destroyMemory : Keeps destroyMemory :=
  fun _ _ => Leads.get fun _ hs => fillMemory_endsIn _ hs (Nat.le_refl _)

theorem keeps_memErrorEvent (addr : BitVec 20) (data : Word) (check : BitVec 6) : Keeps (memErrorEvent addr data check) := by
  refine fun r x => Leads.get fun s hs => ?_
  split
  · next ha => exact putError_endsIn hs ha data check
  · exact hs

/-! ## Program load -/

theorem keeps_freeFp : Keeps freeFp :=
  (keeps_drawFree 64).bind fun _ => (keeps_drawFree 64).bind fun _ => (keeps_drawFree 64).bind fun _ =>
    (keeps_drawFree 64).bind fun _ => (keeps_drawFree 16).bind fun _ => (keeps_drawFree 16).bind fun _ =>
    .modify fun _ h => h

theorem keeps_writePhys : ∀ (ws : List Word) (pa : Nat), Keeps (writePhys pa ws)
  | [], _ => .pure ()
  | w :: ws, pa => (keeps_physWrite pa w).seq (keeps_writePhys ws (pa + 1))

/-- The loaded program gets control with no word of XCT (70_reset R703). -/
theorem loadDone_leads (code : DevCode) (start : Addr) : Leads Sound (loadDone code start) Sound :=
  (keeps_drawFree 10).leadsSound.bind fun _ => (keeps_drawFree 16).leadsSound.bind fun _ =>
    (keeps_drawFree 16).leadsSound.bind fun _ => (keeps_drawFree 16).leadsSound.bind fun _ =>
    keeps_drawBit.leadsSound.bind fun _ => keeps_freeFp.leadsSound.bind fun _ => .modify fun _ => sound_resume

theorem loadBytesEvent_leads {r : RunState} (code : DevCode) (got more : List (BitVec 8)) :
    Leads (Steady r none) (loadBytesEvent code got more) Sound := by
  have hwaits : Leads (Steady r none)
      (modify fun s : State => { s with runState := .loadPio code (got ++ more) }) Sound :=
    .modify fun _ hs => sound_withRunState hs.sound hs.2.2 _
  refine hwaits.bind fun _ => Keeps.get.leadsSound.bind fun s => ?_
  split
  · exact (Keeps.pure ()).leadsSound
  · exact (keeps_writePhys _ _).leadsSound.bind fun _ => .ite (loadDone_leads code _) (Keeps.pure ()).leadsSound

theorem sound_startLoad {s : State} (h : Sound s) (code : DevCode) (r : RunState) : Sound (startLoad code r s) := by
  unfold startLoad
  split
  · exact sound_enterConsole h
  · exact sound_withoutXct (sound_ioReset (sound_cpuCommand h .pulse)) r

theorem sound_startAutoLoad {s : State} (h : Sound s) : Sound (startAutoLoad s) := by
  unfold startAutoLoad
  split
  · exact sound_startLoad h _ _
  · exact sound_startLoad h _ _

theorem dchEvent_leads (r : DchRequest) : Leads Sound (dchEvent r) Sound := by
  refine Keeps.get.leadsSound.bind fun s => (keeps_dchTransfer r).leadsSound.bind fun _ => ?_
  split
  · exact .ite (loadDone_leads _ _) (Keeps.pure ()).leadsSound
  · exact (Keeps.pure ()).leadsSound

/-! ## The self-test -/

theorem sound_nextError {s : State} (h : Sound s) (hx : s.xct = none) (errs : List SelfTestError) :
    Sound (nextError errs s) := by
  cases errs with
  | nil => exact sound_withRunState h hx .console
  | cons e rest => exact sound_withRunState h hx (.testError rest)

theorem selfTest_leads {r : RunState} : Leads (Steady r none) selfTest Sound :=
  keeps_destroyMemory.leads.bind fun _ =>
    .modify fun s hs => sound_nextError (s := { s with testErrors := [] }) hs.sound hs.2.2 _

theorem powerUpConsole_leads : Leads Sound powerUpConsole Sound := by
  have henter : Leads Sound (modify fun s => enterConsole (cpuCommand .pulse s)) (Steady .console none) :=
    .modify fun s h => ⟨sound_enterConsole (sound_cpuCommand h .pulse), rfl, rfl⟩
  refine henter.bind fun _ => selfTest_leads.bind fun _ => .modify fun s h => ?_
  split
  · exact sound_startAutoLoad h
  · exact h

/-! ## Power and the front panel -/

theorem sound_powerUp {s : State} (h : Sound s) : Sound (powerUp s) := by
  have hext := ext_codes_map h (g := fun x => { x with busy := false, done := false }) fun _ => rfl
  exact ⟨rfl, rfl, rfl, rfl, rfl, extSound_iff.mpr hext⟩

/-- Power returns with memory as it was, its errors too (60_exceptions R660). -/
theorem autoRestart_leads : Leads Sound autoRestart Sound := by
  have hheld : Leads Sound (modify fun s => { powerUp s with
      mem := s.mem, memFaults := s.memFaults, survived := true,
      con := ⟨false, false, false, false, false, false⟩ }) Sound := by
    refine .modify fun s h => ?_
    have hall := h
    obtain ⟨hwf, hmem, hfaults, -, -, -⟩ := hall
    exact sound_withFaults (sound_withMem (sound_powerUp h) hwf (memInstalled_iff.mp hmem))
      (faultsInstalled_iff.mp hfaults)
  refine hheld.bind fun _ => (keeps_drawFree 16).leadsSound.bind fun a0 => (keeps_drawFree 16).leadsSound.bind fun a1 =>
    (keeps_drawFree 16).leadsSound.bind fun a2 => (keeps_drawFree 16).leadsSound.bind fun a3 =>
    keeps_drawBit.leadsSound.bind fun c => (keeps_drawFree 15).leadsSound.bind fun p =>
    keeps_freeFp.leadsSound.bind fun _ => .modify fun s h => ?_
  have hregs : Sound { s with ac := ⟨a0, a1, a2, a3⟩, cry := c } := h
  dsimp only
  split
  · exact sound_resume hregs
  · exact (sound_enterConsole hregs :)

theorem powerRestoredEvent_leads (held : Bool) : Leads Sound (powerRestoredEvent held) Sound := by
  refine Leads.get fun s h => ?_
  split
  · split
    · exact autoRestart_leads s h
    · exact sound_powerUp h
  · exact h

theorem sound_breakEvent {s : State} (h : Sound s) : Sound (breakEvent s) := by
  unfold breakEvent
  split
  · next rest hr => exact sound_nextError h (xct_eq_none_of_not_running h (by rw [hr]; nofun)) rest
  · split
    · exact sound_enterConsole (s := { s with con := { s.con with brk := true } }) h
    · exact h

theorem resetSwitchEvent_leads : Leads Sound resetSwitchEvent Sound :=
  Keeps.get.leadsSound.bind fun _ => .ite
    ((keeps_drawFree 15).leadsSound.bind fun _ => .modify fun _ h => (sound_enterConsole (sound_ioReset h) :))
    (Keeps.pure ()).leadsSound

/-! ## The virtual console -/

theorem keeps_depositEvent (a : Addr) (v : Word) : Keeps (depositEvent a v) :=
  Keeps.get.bind fun _ => .ite (.ite (.pure ()) (keeps_physWrite _ v)) (keeps_physWrite _ v)

/-- The waiting enable falls, whichever way the map goes (47_map R602). -/
theorem sound_selectMapEvent {s : State} (h : Sound s) (status : Option Word) (user : Option AcNo) :
    Sound (selectMapEvent status user s) := by
  cases user with
  | none => exact sound_withMap (on := false) (pending := false) h rfl
  | some u => exact sound_withMap (on := true) (pending := false) h rfl

theorem consoleEvent_leads (a : ConsoleAction) : Leads (Steady .console none) (consoleEvent a) Sound := by
  cases a with
  | setAc ac v => exact (keeps_setAc ac v).toSound
  | setPc p => exact (keeps_setPc p).toSound
  | setCarry c => exact (keeps_setCry c).toSound
  | setVcr | setFpsr | setFppc => exact .modify fun _ hs => hs.sound
  | setFpac fac v => exact (keeps_setFpac fac v).toSound
  | deposit p v => exact (keeps_depositEvent p v).toSound
  | setUserEntry | setDchEntry =>
    refine .modify fun s hs => ?_
    split <;> exact hs.sound
  | selectMap status user => exact .modify fun _ hs => sound_selectMapEvent hs.sound status user
  | ioReset => exact .modify fun _ hs => (sound_ioReset hs.sound :)
  | selfTest => exact selfTest_leads
  | memoryTest => exact keeps_destroyMemory.toSound
  | proceed | runAt | singleStep => exact .modify fun _ hs => sound_resume hs.sound
  | loadPio code | loadDch code => exact .modify fun _ hs => sound_startLoad hs.sound code _

/-! ## Every input -/

theorem whilePowered_leads {g : State → State} (hg : ∀ s, Sound s → Sound (g s)) :
    Leads Sound (whilePowered g) Sound := by
  refine .modify fun s h => ?_
  split
  · exact hg s h
  · exact h

theorem sound_installExt {s : State} (h : Sound s) (d : ExtDevice) : Sound (installExt d s) := by
  unfold installExt
  split
  · exact h
  · next hd =>
    have hall := h
    obtain ⟨-, -, -, -, -, hext⟩ := hall
    refine sound_withExt h fun y hy => ?_
    rcases List.mem_cons.mp hy with rfl | hy
    · simp only [Bool.or_eq_true, not_or, Bool.not_eq_true, decide_eq_true_eq] at hd
      obtain ⟨⟨⟨hboard, hcpu⟩, hzero⟩, -⟩ := hd
      unfold extCode
      rw [hboard, decide_eq_true hcpu, decide_eq_true hzero]
      rfl
    · exact extSound_iff.mp hext y (List.mem_filter.mp hy).1

theorem hostEvent_leads (i : HostInput) : Leads Sound (hostEvent i) Sound := by
  cases i with
  | cpu => exact (Keeps.pure ()).leadsSound
  | ttiChar | ttiBreak | ttiParityError =>
    refine .modify fun s h => ?_
    split <;> exact h
  | ttoSent | rtcTick | pitTick | powerFailing | dchInside => exact whilePowered_leads fun _ h => h
  | powerLost => exact .modify fun _ h => sound_withoutXct h .off
  | powerRestored held => exact powerRestoredEvent_leads held
  | breakKey => exact .modify fun _ => sound_breakEvent
  | resetSwitch => exact resetSwitchEvent_leads
  | prLoadSwitch =>
    refine .modify fun s h => ?_
    split
    · exact sound_startAutoLoad (sound_enterConsole (s := { s with con := { s.con with pl := true } }) h)
    · exact h
  | memError addr data check =>
    exact Keeps.get.leadsSound.bind fun _ =>
      .ite (keeps_memErrorEvent addr data check).leadsSound (Keeps.pure ()).leadsSound
  | sniffed => exact whilePowered_leads fun _ => sound_sniffEvent
  | extDevice d => exact .modify fun _ h => sound_installExt h d
  | selfTestError => exact .modify fun _ h => h
  | dch r => exact Keeps.get.leadsSound.bind fun _ => .ite (dchEvent_leads r) (Keeps.pure ()).leadsSound
  | loadBytes bytes =>
    refine Leads.get fun s h => ?_
    cases hr : s.runState with
    | loadPio code got =>
      exact loadBytesEvent_leads code got bytes s ⟨h, hr, xct_eq_none_of_not_running h (by rw [hr]; nofun)⟩
    | running | halted | console | testError | loadDch | off => exact h
  | console a =>
    refine Leads.get fun s h => ?_
    split
    · next hc =>
      have hr : s.runState = .console := of_decide_eq_true hc
      exact consoleEvent_leads a s ⟨h, hr, xct_eq_none_of_not_running h (by rw [hr]; nofun)⟩
    · exact h

end Sys2Proof.Laws
end

section
/-!
SUPPORT and the proof of O5: the fetch takes the word of XCT, so that every instruction starts without one; what an
instruction, an interrupt or a host input leaves is sound.
-/

namespace Sys2Proof.Laws

set_option Elab.async false

open Sys2Proof.Machine

/-! ## The fetch -/

theorem firstWord_leads (x : Option Word) : Leads (Steady .running x) firstWord (Steady .running none) := by
  refine Leads.get fun s hs => ?_
  obtain ⟨h, hr, -⟩ := hs
  cases hx : s.xct with
  | some w => exact ⟨sound_withoutXct h s.runState, hr, rfl⟩
  | none => exact (keeps_memRead s.pc).leads s ⟨h, hr, hx⟩

theorem fetchWords_leads (x : Option Word) : Leads (Steady .running x) fetchWords (Steady .running none) :=
  (firstWord_leads x).bind fun w => (keeps_secondWord w).leads.bind fun _ => (Keeps.pure _).leads

/-! ## The processor's step -/

theorem runNext_sound {s : State} (h : Sound s) (hr : s.runState = .running) : EndsSound (runNext s) := by
  have hend := fetchWords_leads s.xct s ⟨h, hr, rfl⟩
  unfold runNext
  cases hres : fetchWords s with
  | error e s1 =>
    rw [hres] at hend
    exact endsSound_finish (r := .error e (countHold false s1)) hend
  | ok ws s1 =>
    rw [hres] at hend
    cases hdec : decodeWords (lefMode s) ws.1 ws.2 with
    | none =>
      simp only [hdec]
      exact undefinedWord_sound (countHold false s1) hend
    | some i =>
      obtain ⟨-, -, -, -, hxct, -⟩ := h
      simp only [hdec]
      exact execHeld_sound (fun w => isHeldWord_of_xctSound hxct) i (countHold (oneCycle i) s1) hend

theorem afterStep_sound {r : Host.Outcome State Fault Refusal} (h : EndsSound r) (s : State) :
    EndsSound (afterStep s r) := by
  cases r with
  | next t =>
    unfold afterStep
    dsimp only
    split
    · exact endsSound_next (sound_enterConsole (h t rfl))
    · exact endsSound_next (h t rfl)
  | fault f => exact endsSound_fault f
  | refused f => exact endsSound_refused f

/-- An interrupt turns the map off and drops the word of XCT (60_exceptions R626). -/
theorem interruptEntry_leads : Leads Sound interruptEntry Sound := by
  have hoff : Leads Sound (modify fun s : State =>
      { s with ion := false, ms := { s.ms with um := s.mapOn }, mapOn := false, xct := none }) Sound :=
    .modify fun s h => sound_withoutXct (sound_mapOff h) s.runState
  exact hoff.bind fun _ => Keeps.leadsSound <| Keeps.get.bind fun _ =>
    (keeps_memWrite 0 _).seq <| (keeps_indirectAt 1).bind keeps_setPc

theorem runStep_sound {s : State} (h : Sound s) (hr : s.runState = .running) : EndsSound (runStep s) := by
  unfold runStep
  split
  · exact interruptEntry_leads.endsSound h
  · exact afterStep_sound (runNext_sound h hr) s

theorem cpuStep_sound {s : State} (h : Sound s) : EndsSound (cpuStep s) := by
  unfold cpuStep
  cases hr : s.runState with
  | running => exact runStep_sound h hr
  | halted =>
    dsimp only
    split
    · exact powerUpConsole_leads.endsSound h
    · exact endsSound_next h
  | console | testError | loadPio | loadDch | off => exact endsSound_next h

/-! ## The step of the machine -/

theorem machineStep_sound {s : State} (h : Sound s) : EndsSound (machineStep s) := by
  unfold machineStep
  split
  · exact cpuStep_sound h
  · next rest _ => exact cpuStep_sound (s := { s with inputs := rest }) h
  · next e rest _ _ => exact (hostEvent_leads e).endsSound (s := { s with inputs := rest }) h

/-- Settles O5: a step is an instruction, an interrupt entry or a host input, each of which leaves a sound state from one. -/
theorem stepKeepsInvariant : Obligations.StepKeepsInvariant := by
  unfold Obligations.StepKeepsInvariant
  exact fun s t h hstep => machineStep_sound h t hstep

end Sys2Proof.Laws
end

section
/-!
SUPPORT and the proofs of O1 and O2. `RoundTrip` speaks of the words of one instruction at a time; here they become a claim
about every instruction and about bytes. What `decode` adds is that it finds the length from the first word, a zero standing
for the second: that gives the length of the instruction because the second word never decides it (30_encoding R160).
-/

namespace Sys2Proof.Laws

/-! ## The second word does not decide the length -/

theorem decodeNoOperand_words (w v : Word) :
    (decodeNoOperand w v).map Instr.words = (decodeNoOperand w 0).map Instr.words := by
  unfold decodeNoOperand
  split <;> simp [Instr.words, encode]

theorem decodeExt_words (w v : Word) : (decodeExt w v).map Instr.words = (decodeExt w 0).map Instr.words := by
  unfold decodeExt
  dsimp only
  split
  case h_30 => exact decodeNoOperand_words w v
  all_goals rfl

theorem decodeFloatStatus_words (w v : Word) :
    (decodeFloatStatus w v).map Instr.words = (decodeFloatStatus w 0).map Instr.words := by
  unfold decodeFloatStatus
  split
  case h_3 => rfl
  all_goals simp [Instr.words, encode]

theorem decodeFloat_words (w v : Word) : (decodeFloat w v).map Instr.words = (decodeFloat w 0).map Instr.words := by
  unfold decodeFloat
  dsimp only
  split
  case h_28 => exact decodeFloatStatus_words w v
  all_goals simp [Instr.words, encode]

theorem decodeGroup3_words (w v : Word) : (decodeGroup3 w v).map Instr.words = (decodeGroup3 w 0).map Instr.words := by
  unfold decodeGroup3
  dsimp only
  split
  case h_4 => split <;> simp [Instr.words, encode]
  all_goals rfl

theorem decodeExtRef_words (w v : Word) : (decodeExtRef w v).map Instr.words = (decodeExtRef w 0).map Instr.words := by
  unfold decodeExtRef
  dsimp only
  split
  · split
    case h_1 => split <;> simp [Instr.words, encode]
    all_goals simp [Instr.words, encode]
  · split <;> simp [Instr.words, encode]
  · split
    · simp [Instr.words, encode]
    · rfl
  · exact decodeGroup3_words w v

theorem decodeIo_words (w v : Word) : (decodeIo w v).words = (decodeIo w 0).words := by
  unfold decodeIo
  split
  · simp [Instr.words, encode]
  · rfl

theorem decodeWords_words (lef : Bool) (w v : Word) :
    (decodeWords lef w v).map Instr.words = (decodeWords lef w 0).map Instr.words := by
  unfold decodeWords
  split
  case h_4 =>
    split
    · rfl
    · exact congrArg some (decodeIo_words w v)
  case h_5 =>
    split
    case h_2 =>
      split
      · exact decodeExt_words w v
      · rfl
      · exact decodeFloat_words w v
      · split
        · rfl
        · exact decodeExtRef_words w v
    all_goals rfl
  all_goals rfl

/-- The length found from the first word is that of the instruction, whatever word follows. -/
theorem wordsOf_of_decodeWords {lef : Bool} {w v : Word} {i : Instr} (h : decodeWords lef w v = some i) :
    wordsOf lef w = i.words := by
  have hlen : some i.words = (decodeWords lef w 0).map Instr.words := by
    rw [← decodeWords_words lef w v, h, Option.map_some]
  unfold wordsOf
  split
  · next j hj =>
    rw [hj] at hlen
    exact (Option.some.inj hlen).symm
  · next hnone =>
    rw [hnone] at hlen
    cases hlen

/-! ## From words to bytes -/

/-- One word decodes from its two bytes. -/
theorem decode_one_word {lef : Bool} {w : Word} {i : Instr} (hlen : wordsOf lef w = 1)
    (h : decodeWords lef w 0 = some i) (rest : List (BitVec 8)) :
    decode lef (bytesOf [w] ++ rest) = .ok (i, rest) := by
  have hne : wordsOf lef w ≠ 2 := by omega
  simp only [bytesOf, decode, List.cons_append, List.nil_append, wordOfBytes_halves, hne, h, if_false]

/-- Two words decode from their four bytes. -/
theorem decode_two_words {lef : Bool} {w v : Word} {i : Instr} (hlen : wordsOf lef w = 2)
    (h : decodeWords lef w v = some i) (rest : List (BitVec 8)) :
    decode lef (bytesOf [w, v] ++ rest) = .ok (i, rest) := by
  simp only [bytesOf, decode, List.cons_append, List.nil_append, wordOfBytes_halves, hlen, h, if_true]

/-- An instruction has one word or two (30_encoding R160). -/
theorem encode_one_or_two (i : Instr) : (∃ w, encode i = [w]) ∨ ∃ w v, encode i = [w, v] := by
  cases i with
  | save | ejmp | ejsr | eisz | edsz | pshj | elda | esta | elef | eldb | estb | dspa | iori | xori | andi | addi
  | fams | famd | fsms | fsmd | fmms | fmmd | fdms | fdmd | flds | fldd | fsts | fstd | flmd | ffmd | fsst | flst
  | vct =>
    exact .inr ⟨_, _, rfl⟩
  | _ => exact .inl ⟨_, rfl⟩

/-! ## Every instruction -/

/-- The round trip of 30_encoding R160 to R193 on words, an instruction at a time. -/
theorem decodeWords_encode : (i : Instr) → RoundTrip.Statement i
  | .jmp ea => RoundTrip.jmp ea
  | .jsr ea => RoundTrip.jsr ea
  | .isz ea => RoundTrip.isz ea
  | .dsz ea => RoundTrip.dsz ea
  | .lda ac ea => RoundTrip.lda ac ea
  | .sta ac ea => RoundTrip.sta ac ea
  | .lef ac ea => RoundTrip.lef ac ea
  | .com o => RoundTrip.com o
  | .neg o => RoundTrip.neg o
  | .mov o => RoundTrip.mov o
  | .inc o => RoundTrip.inc o
  | .adc o => RoundTrip.adc o
  | .sub o => RoundTrip.sub o
  | .add o => RoundTrip.add o
  | .and o => RoundTrip.and o
  | .adi n ac => RoundTrip.adi n ac
  | .sbi n ac => RoundTrip.sbi n ac
  | .dad acs acd => RoundTrip.dad acs acd
  | .dsb acs acd => RoundTrip.dsb acs acd
  | .ior acs acd => RoundTrip.ior acs acd
  | .xor acs acd => RoundTrip.xor acs acd
  | .anc acs acd => RoundTrip.anc acs acd
  | .xch acs acd => RoundTrip.xch acs acd
  | .sgt acs acd => RoundTrip.sgt acs acd
  | .sge acs acd => RoundTrip.sge acs acd
  | .lsh acs acd => RoundTrip.lsh acs acd
  | .dlsh acs acd => RoundTrip.dlsh acs acd
  | .hxl n ac => RoundTrip.hxl n ac
  | .hxr n ac => RoundTrip.hxr n ac
  | .dhxl n ac => RoundTrip.dhxl n ac
  | .dhxr n ac => RoundTrip.dhxr n ac
  | .bto acs acd => RoundTrip.bto acs acd
  | .btz acs acd => RoundTrip.btz acs acd
  | .szb acs acd => RoundTrip.szb acs acd
  | .szbo acs acd => RoundTrip.szbo acs acd
  | .lob acs acd => RoundTrip.lob acs acd
  | .lrb acs acd => RoundTrip.lrb acs acd
  | .cob acs acd => RoundTrip.cob acs acd
  | .ldb acs acd => RoundTrip.ldb acs acd
  | .stb acs acd => RoundTrip.stb acs acd
  | .psh acs acd => RoundTrip.psh acs acd
  | .pop acs acd => RoundTrip.pop acs acd
  | .syc acs acd => RoundTrip.syc acs acd
  | .lmp => RoundTrip.lmp
  | .pshr => RoundTrip.pshr
  | .popb => RoundTrip.popb
  | .bam => RoundTrip.bam
  | .popj => RoundTrip.popj
  | .rtn => RoundTrip.rtn
  | .blm => RoundTrip.blm
  | .divx => RoundTrip.divx
  | .mul => RoundTrip.mul
  | .muls => RoundTrip.muls
  | .div => RoundTrip.div
  | .divs => RoundTrip.divs
  | .save i => RoundTrip.save i
  | .rstr => RoundTrip.rstr
  | .xop acs acd op => RoundTrip.xop acs acd op
  | .xop1 acs acd op => RoundTrip.xop1 acs acd op
  | .ejmp ea => RoundTrip.ejmp ea
  | .ejsr ea => RoundTrip.ejsr ea
  | .eisz ea => RoundTrip.eisz ea
  | .edsz ea => RoundTrip.edsz ea
  | .pshj ea => RoundTrip.pshj ea
  | .elda ac ea => RoundTrip.elda ac ea
  | .esta ac ea => RoundTrip.esta ac ea
  | .elef ac ea => RoundTrip.elef ac ea
  | .eldb ac idx disp => RoundTrip.eldb ac idx disp
  | .estb ac idx disp => RoundTrip.estb ac idx disp
  | .dspa ac ea => RoundTrip.dspa ac ea
  | .clm acs acd => RoundTrip.clm acs acd
  | .snb acs acd => RoundTrip.snb acs acd
  | .msp ac => RoundTrip.msp ac
  | .xct ac => RoundTrip.xct ac
  | .hlv ac => RoundTrip.hlv ac
  | .iori ac i => RoundTrip.iori ac i
  | .xori ac i => RoundTrip.xori ac i
  | .andi ac i => RoundTrip.andi ac i
  | .addi ac i => RoundTrip.addi ac i
  | .fas facs facd => RoundTrip.fas facs facd
  | .fad facs facd => RoundTrip.fad facs facd
  | .fss facs facd => RoundTrip.fss facs facd
  | .fsd facs facd => RoundTrip.fsd facs facd
  | .fms facs facd => RoundTrip.fms facs facd
  | .fmd facs facd => RoundTrip.fmd facs facd
  | .fds facs facd => RoundTrip.fds facs facd
  | .fdd facs facd => RoundTrip.fdd facs facd
  | .fams fac ea => RoundTrip.fams fac ea
  | .famd fac ea => RoundTrip.famd fac ea
  | .fsms fac ea => RoundTrip.fsms fac ea
  | .fsmd fac ea => RoundTrip.fsmd fac ea
  | .fmms fac ea => RoundTrip.fmms fac ea
  | .fmmd fac ea => RoundTrip.fmmd fac ea
  | .fdms fac ea => RoundTrip.fdms fac ea
  | .fdmd fac ea => RoundTrip.fdmd fac ea
  | .flds fac ea => RoundTrip.flds fac ea
  | .fldd fac ea => RoundTrip.fldd fac ea
  | .fsts fac ea => RoundTrip.fsts fac ea
  | .fstd fac ea => RoundTrip.fstd fac ea
  | .flmd fac ea => RoundTrip.flmd fac ea
  | .ffmd fac ea => RoundTrip.ffmd fac ea
  | .flas ac fac => RoundTrip.flas ac fac
  | .ffas ac fac => RoundTrip.ffas ac fac
  | .fnom fac => RoundTrip.fnom fac
  | .frh fac => RoundTrip.frh fac
  | .fab fac => RoundTrip.fab fac
  | .fneg fac => RoundTrip.fneg fac
  | .fscal fac => RoundTrip.fscal fac
  | .fexp fac => RoundTrip.fexp fac
  | .fint fac => RoundTrip.fint fac
  | .fhlv fac => RoundTrip.fhlv fac
  | .fns => RoundTrip.fns
  | .fsa => RoundTrip.fsa
  | .fseq => RoundTrip.fseq
  | .fsne => RoundTrip.fsne
  | .fslt => RoundTrip.fslt
  | .fsge => RoundTrip.fsge
  | .fsle => RoundTrip.fsle
  | .fsgt => RoundTrip.fsgt
  | .fsnm => RoundTrip.fsnm
  | .fsnd => RoundTrip.fsnd
  | .fsnu => RoundTrip.fsnu
  | .fsnud => RoundTrip.fsnud
  | .fsno => RoundTrip.fsno
  | .fsnod => RoundTrip.fsnod
  | .fsnuo => RoundTrip.fsnuo
  | .fsner => RoundTrip.fsner
  | .fsst ea => RoundTrip.fsst ea
  | .flst ea => RoundTrip.flst ea
  | .fte => RoundTrip.fte
  | .ftd => RoundTrip.ftd
  | .fcle => RoundTrip.fcle
  | .fpsh => RoundTrip.fpsh
  | .fpop => RoundTrip.fpop
  | .fcmp facs facd => RoundTrip.fcmp facs facd
  | .fmov facs facd => RoundTrip.fmov facs facd
  | .cmv => RoundTrip.cmv
  | .cmp => RoundTrip.cmp
  | .ctr => RoundTrip.ctr
  | .cmt => RoundTrip.cmt
  | .nio ac f dev => RoundTrip.nio ac f dev
  | .dia ac f dev => RoundTrip.dia ac f dev
  | .doa ac f dev => RoundTrip.doa ac f dev
  | .dib ac f dev => RoundTrip.dib ac f dev
  | .dob ac f dev => RoundTrip.dob ac f dev
  | .dic ac f dev => RoundTrip.dic ac f dev
  | .doc ac f dev => RoundTrip.doc ac f dev
  | .skp t dev => RoundTrip.skp t dev
  | .dis ac f dev => RoundTrip.dis ac f dev
  | .inten ac => RoundTrip.inten ac
  | .intds ac => RoundTrip.intds ac
  | .nioCpu ac f => RoundTrip.nioCpu ac f
  | .reads ac f => RoundTrip.reads ac f
  | .doaCpu ac f => RoundTrip.doaCpu ac f
  | .doapCpu ac => RoundTrip.doapCpu ac
  | .inta ac f => RoundTrip.inta ac f
  | .vct stackChange table => RoundTrip.vct stackChange table
  | .msko ac f => RoundTrip.msko ac f
  | .iorst ac f => RoundTrip.iorst ac f
  | .halta ac f => RoundTrip.halta ac f
  | .skpCpu t => RoundTrip.skpCpu t
  | .disCpu ac f => RoundTrip.disCpu ac f
  | .diaMap ac f => RoundTrip.diaMap ac f
  | .doaMap ac f => RoundTrip.doaMap ac f
  | .dobMap ac f => RoundTrip.dobMap ac f
  | .dicMap ac f => RoundTrip.dicMap ac f
  | .docMap ac f => RoundTrip.docMap ac f
  | .niopMap ac => RoundTrip.niopMap ac
  | .nioMap ac f => RoundTrip.nioMap ac f
  | .dibMap ac f => RoundTrip.dibMap ac f
  | .disMap ac f => RoundTrip.disMap ac f
  | .diaTti ac f => RoundTrip.diaTti ac f
  | .doaTto ac f => RoundTrip.doaTto ac f
  | .doaRtc ac f => RoundTrip.doaRtc ac f
  | .diaPit ac f => RoundTrip.diaPit ac f
  | .doaPit ac f => RoundTrip.doaPit ac f
  | .doaErcc ac f => RoundTrip.doaErcc ac f
  | .diaErcc ac f => RoundTrip.diaErcc ac f
  | .dibErcc ac f => RoundTrip.dibErcc ac f
  | .diaApl ac f => RoundTrip.diaApl ac f
  | .doaApl ac f => RoundTrip.doaApl ac f

/-- The words of a well-formed instruction, written out, decode to it in the mode that selects it. -/
theorem decodeWords_of_encode {lef : Bool} {i : Instr} {w v : Word} (hwf : i.wf = true)
    (hsel : i.selectedIn lef = true) (hw : (encode i).getD 0 0 = w) (hv : (encode i).getD 1 0 = v) :
    decodeWords lef w v = some i := by
  subst hw hv
  exact decodeWords_encode i hwf lef hsel

/-! ## The obligations -/

/-- Settles O1: the words decode to the instruction, so their number is the length that `decode` finds from the first. -/
theorem decodeOfEncode : Obligations.DecodeOfEncode := by
  unfold Obligations.DecodeOfEncode
  intro i lef rest hwf hsel
  have hlen : i.words = (encode i).length := rfl
  rcases encode_one_or_two i with ⟨w, he⟩ | ⟨w, v, he⟩
  · have hdec : decodeWords lef w 0 = some i := decodeWords_of_encode hwf hsel (by rw [he]; rfl) (by rw [he]; rfl)
    have hone : wordsOf lef w = 1 := by rw [wordsOf_of_decodeWords hdec, hlen, he]; rfl
    rw [he]
    exact decode_one_word hone hdec rest
  · have hdec : decodeWords lef w v = some i := decodeWords_of_encode hwf hsel (by rw [he]; rfl) (by rw [he]; rfl)
    have htwo : wordsOf lef w = 2 := by rw [wordsOf_of_decodeWords hdec, hlen, he]; rfl
    rw [he]
    exact decode_two_words htwo hdec rest

/-- Settles O2: each sample is the encoding of its instruction, so the round trip decodes it. -/
theorem sampleWordsDecode : Obligations.SampleWordsDecode := by
  unfold Obligations.SampleWordsDecode
  refine ⟨?_, ?_, ?_, ?_, ?_, ?_, ?_, ?_, ?_, ?_, ?_, ?_⟩ <;>
    exact decodeWords_of_encode (by decide) (by decide) (by decide) (by decide)

end Sys2Proof.Laws
end

section
/-!
Proofs of O9 and O10, the arithmetic/logical class (40_fixed_point_alc). One lemma runs the execution sequence for any
function; the five adding functions are one 17-bit sum each; the shifter is read as a number of 17 bits.
-/

namespace Sys2Proof.Laws

open Sys2Proof.Machine

/-! ## The execution sequence -/

/-- The ALC sequence completes for every function: the shifter's output loaded unless the no-load bit is set, then the skip
it decides (40_fixed_point_alc R201, R205). -/
theorem runInstr_alc (fn : Word → Word → Bool × Word) (o : AlcOps) (s : State) :
    let r := alcResult fn o s.cry (s.ac.get o.acs) (s.ac.get o.acd)
    runInstr (alc fn o) s =
      .next ((if o.noLoad then s else { s.withAc o.acd r.2 with cry := r.1 }).nextSkip 1 (alcSkip o.skip r.1 r.2)) := by
  intro r
  apply runInstr_ok
  unfold alc
  rw [run_bind_ok (run_get s)]
  cases hload : o.noLoad with
  | true => rfl
  | false => rfl

theorem exec_adc (o : AlcOps) (s : State) : exec (.adc o) s = runInstr (alc fnAdc o) s := rfl

theorem exec_add (o : AlcOps) (s : State) : exec (.add o) s = runInstr (alc fnAdd o) s := rfl

theorem exec_and (o : AlcOps) (s : State) : exec (.and o) s = runInstr (alc fnAnd o) s := rfl

theorem exec_com (o : AlcOps) (s : State) : exec (.com o) s = runInstr (alc fnCom o) s := rfl

theorem exec_inc (o : AlcOps) (s : State) : exec (.inc o) s = runInstr (alc fnInc o) s := rfl

theorem exec_mov (o : AlcOps) (s : State) : exec (.mov o) s = runInstr (alc fnMov o) s := rfl

theorem exec_neg (o : AlcOps) (s : State) : exec (.neg o) s = runInstr (alc fnNeg o) s := rfl

theorem exec_sub (o : AlcOps) (s : State) : exec (.sub o) s = runInstr (alc fnSub o) s := rfl

/-- A carry out complements the carry the carry field gives (40_fixed_point_alc R203). -/
theorem alcResult_complements (fn : Word → Word → Bool × Word) (o : AlcOps) (c : Bool) (x y : Word) :
    alcResult fn o c x y =
      alcShift o.shift (if (fn x y).1 then !carryInit o.carry c else carryInit o.carry c) (fn x y).2 := by
  unfold alcResult
  cases (fn x y).1 with
  | true => rw [Bool.xor_true, if_pos rfl]
  | false => rw [Bool.xor_false, if_neg Bool.false_ne_true]

theorem alcSkip_szc (c : Bool) (r : Word) : alcSkip .szc c r = true ↔ c = false := by
  simp [alcSkip]

/-- The skip that skips where carry is zero or the result is (40_fixed_point_alc R204, 90_conflicts C44). -/
theorem alcSkip_sez (c : Bool) (r : Word) : alcSkip .sez c r = true ↔ c = false ∨ r = 0 := by
  simp [alcSkip]

/-- The skip that skips where neither carry nor the result is zero (40_fixed_point_alc R204). -/
theorem alcSkip_sbn (c : Bool) (r : Word) : alcSkip .sbn c r = true ↔ c = true ∧ r ≠ 0 := by
  simp [alcSkip]

/-- Settles O9: the sequence runs once for every function, and each instruction is that sequence of its own. -/
theorem alcSequence : Obligations.AlcSequence := by
  unfold Obligations.AlcSequence
  refine ⟨fun o s => ?_, alcResult_complements, fun c => ⟨rfl, rfl, rfl, rfl⟩, fun c r => ?_⟩
  · simp only [exec_adc, exec_add, exec_and, exec_com, exec_inc, exec_mov, exec_neg, exec_sub, runInstr_alc, and_self]
  · exact ⟨rfl, rfl, alcSkip_szc c r, Iff.rfl, decide_eq_true_iff, decide_eq_true_iff, alcSkip_sez c r, alcSkip_sbn c r⟩

/-! ## The functions -/

/-- The number of 17 bits that carry and the word after it are. -/
def value17 (x : Bool × Word) : Nat := x.1.toNat * 65536 + x.2.toNat

/-- A sum of 17 bits loses nothing: the carry out is its highest bit (40_fixed_point_alc R203). -/
theorem value17_sum17 {n : Nat} (h : n < 131072) : value17 (sum17 n) = n := by
  unfold value17 sum17
  rw [BitVec.toNat_ofNat]
  by_cases hc : 65536 ≤ n
  · simp only [hc, decide_true, Bool.toNat_true]
    omega
  · simp only [hc, decide_false, Bool.toNat_false]
    omega

theorem value17_fnAdd (s d : Word) : value17 (fnAdd s d) = d.toNat + s.toNat :=
  value17_sum17 (by omega)

theorem value17_fnAdc (s d : Word) : value17 (fnAdc s d) = d.toNat + (65535 - s.toNat) := by
  unfold fnAdc
  rw [value17_sum17 (by omega), BitVec.toNat_not]

theorem value17_fnInc (s d : Word) : value17 (fnInc s d) = s.toNat + 1 :=
  value17_sum17 (by omega)

theorem value17_fnNeg (s d : Word) : value17 (fnNeg s d) = 65536 - s.toNat := by
  unfold fnNeg
  rw [value17_sum17 (by omega), BitVec.toNat_not]
  omega

theorem value17_fnSub (s d : Word) : value17 (fnSub s d) = d.toNat + (65536 - s.toNat) := by
  unfold fnSub
  rw [value17_sum17 (by omega), BitVec.toNat_not]
  omega

/-! ## The shifter -/

theorem toNat_highByte (r : Word) : (highByte r).toNat = r.toNat / 256 := by
  unfold highByte
  rw [BitVec.extractLsb'_toNat, Nat.shiftRight_eq_div_pow]
  omega

theorem toNat_lowByte (r : Word) : (lowByte r).toNat = r.toNat % 256 := by
  unfold lowByte
  rw [BitVec.extractLsb'_toNat, Nat.shiftRight_zero]

theorem toNat_wordOfBytes (hi lo : BitVec 8) : (wordOfBytes hi lo).toNat = hi.toNat * 256 + lo.toNat := by
  unfold wordOfBytes
  rw [BitVec.toNat_append, ← Nat.shiftLeft_add_eq_or_of_lt lo.isLt, Nat.shiftLeft_eq]

/-- Left: rotated up one place, the highest of the 17 bits to the lowest (40_fixed_point_alc R202). -/
theorem value17_left (c : Bool) (r : Word) :
    value17 (alcShift .left c r) = 2 * value17 (c, r) % 131072 + value17 (c, r) / 65536 := by
  have hmsb : r.msb.toNat = r.toNat / 32768 := by
    rw [BitVec.msb_eq_decide]
    by_cases h : 32768 ≤ r.toNat <;> simp [h] <;> omega
  have hlow : (r.extractLsb' 0 15 ++ BitVec.ofBool c).toNat = r.toNat % 32768 * 2 + c.toNat := by
    rw [BitVec.toNat_append, ← Nat.shiftLeft_add_eq_or_of_lt (BitVec.isLt _), Nat.shiftLeft_eq,
      BitVec.extractLsb'_toNat, Nat.shiftRight_zero, BitVec.toNat_ofBool]
  have hout : value17 (c, r) / 65536 = c.toNat := by
    simp only [value17]
    omega
  have hkept : 2 * value17 (c, r) % 131072 = 2 * r.toNat := by
    simp only [value17]
    omega
  rw [hout, hkept]
  simp only [value17, alcShift, hmsb, hlow]
  omega

/-- Right: rotated down one place, the lowest of the 17 bits to the highest (40_fixed_point_alc R202). -/
theorem value17_right (c : Bool) (r : Word) :
    value17 (alcShift .right c r) = value17 (c, r) / 2 + value17 (c, r) % 2 * 65536 := by
  have hlsb : (r.getLsbD 0).toNat = r.toNat % 2 := by
    rw [BitVec.getLsbD, Nat.testBit_zero]
    rcases Nat.mod_two_eq_zero_or_one r.toNat with h | h <;> simp [h]
  have hhigh : (BitVec.ofBool c ++ r.extractLsb' 1 15).toNat = c.toNat * 32768 + r.toNat / 2 := by
    rw [BitVec.toNat_append, ← Nat.shiftLeft_add_eq_or_of_lt (BitVec.isLt _), Nat.shiftLeft_eq,
      BitVec.extractLsb'_toNat, BitVec.toNat_ofBool, Nat.shiftRight_eq_div_pow]
    omega
  have hc := Bool.toNat_lt c
  simp only [value17, alcShift, hlsb, hhigh]
  omega

/-- Swap: the bytes exchanged, carry left (40_fixed_point_alc R202). -/
theorem value17_swap (c : Bool) (r : Word) :
    value17 (alcShift .swap c r) = c.toNat * 65536 + r.toNat % 256 * 256 + r.toNat / 256 := by
  simp only [value17, alcShift, toNat_wordOfBytes, toNat_lowByte, toNat_highByte, Nat.add_assoc]

/-- Settles O10: each function and each shift by its value of 17 bits. -/
theorem alcArithmetic : Obligations.AlcArithmetic := by
  unfold Obligations.AlcArithmetic
  refine ⟨fun s d => ?_, fun c r => ?_⟩
  · exact ⟨value17_fnAdd s d, value17_fnAdc s d, value17_fnSub s d, value17_fnInc s d, value17_fnNeg s d,
      rfl, rfl, rfl, BitVec.toNat_not⟩
  · exact ⟨rfl, value17_left c r, value17_right c r, value17_swap c r⟩

end Sys2Proof.Laws
end

section
/-!
Proofs of O11 and O12, the one-accumulator and two-accumulator forms of the fixed-point instructions (41_fixed_point). Two
lemmas run every instruction that makes an accumulator a function of accumulators; what is left is what the functions are.
-/

namespace Sys2Proof.Laws

open Sys2Proof.Machine

/-! ## What the shared pieces do -/

/-- An accumulator becomes a function of itself, and nothing else changes but the program counter. -/
theorem runInstr_updateAc (ac : AcNo) (len : Nat) (g : Word → Word) (s : State) :
    runInstr (updateAc ac len g) s = .next ((s.withAc ac (g (s.ac.get ac))).next len) := rfl

/-- ACD becomes a function of ACS and ACD, and nothing else changes but the program counter. -/
theorem runInstr_updateAcd (acs acd : AcNo) (g : Word → Word → Word) (s : State) :
    runInstr (updateAcd acs acd g) s = .next ((s.withAc acd (g (s.ac.get acs) (s.ac.get acd))).next 1) := rfl

/-! ## Immediate and small immediate -/

/-- An N field stands for one more than its number (30_encoding R165). -/
theorem ofNat_countOf (n : BitVec 2) : BitVec.ofNat 16 (countOf n) = n.setWidth 16 + 1 := by
  have hn := n.isLt
  unfold countOf
  apply BitVec.eq_of_toNat_eq
  simp only [BitVec.toNat_ofNat, BitVec.toNat_add, BitVec.toNat_setWidth, show (1 : Word).toNat = 1 from rfl]
  omega

theorem exec_addi (ac : AcNo) (i : Word) (s : State) :
    exec (.addi ac i) s = .next ((s.withAc ac (s.ac.get ac + i)).next 2) := runInstr_updateAc ac 2 (· + i) s

theorem exec_andi (ac : AcNo) (i : Word) (s : State) :
    exec (.andi ac i) s = .next ((s.withAc ac (s.ac.get ac &&& i)).next 2) := runInstr_updateAc ac 2 (· &&& i) s

theorem exec_iori (ac : AcNo) (i : Word) (s : State) :
    exec (.iori ac i) s = .next ((s.withAc ac (s.ac.get ac ||| i)).next 2) := runInstr_updateAc ac 2 (· ||| i) s

theorem exec_xori (ac : AcNo) (i : Word) (s : State) :
    exec (.xori ac i) s = .next ((s.withAc ac (s.ac.get ac ^^^ i)).next 2) := runInstr_updateAc ac 2 (· ^^^ i) s

theorem exec_adi (n : BitVec 2) (ac : AcNo) (s : State) :
    exec (.adi n ac) s = .next ((s.withAc ac (s.ac.get ac + n.setWidth 16 + 1)).next 1) := by
  rw [BitVec.add_assoc, ← ofNat_countOf]
  exact runInstr_updateAc ac 1 (· + BitVec.ofNat 16 (countOf n)) s

theorem exec_sbi (n : BitVec 2) (ac : AcNo) (s : State) :
    exec (.sbi n ac) s = .next ((s.withAc ac (s.ac.get ac - (n.setWidth 16 + 1))).next 1) := by
  rw [← ofNat_countOf]
  exact runInstr_updateAc ac 1 (· - BitVec.ofNat 16 (countOf n)) s

/-! ## Hex shift and halve -/

theorem exec_hxl (n : BitVec 2) (ac : AcNo) (s : State) :
    exec (.hxl n ac) s = .next ((s.withAc ac (s.ac.get ac <<< (4 * (n.toNat + 1)))).next 1) :=
  runInstr_updateAc ac 1 (· <<< (4 * countOf n)) s

theorem exec_hxr (n : BitVec 2) (ac : AcNo) (s : State) :
    exec (.hxr n ac) s = .next ((s.withAc ac (s.ac.get ac >>> (4 * (n.toNat + 1)))).next 1) :=
  runInstr_updateAc ac 1 (· >>> (4 * countOf n)) s

/-- A number of 16 bits, written as the natural number its bits are, from its signed value. -/
theorem toNat_ofInt16 (k : Int) : ((BitVec.ofInt 16 k).toNat : Int) = k % 65536 := by
  rw [BitVec.toNat_ofInt]
  omega

/-- Halving the magnitude is division rounded toward zero, -32768 included (41_fixed_point R242). -/
theorem halve_eq_tdiv (x : Word) : halve x = BitVec.ofInt 16 (x.toInt.tdiv 2) := by
  have hx := x.isLt
  apply BitVec.eq_of_toNat_eq
  apply Int.ofNat.inj
  simp only [Int.ofNat_eq_natCast, toNat_ofInt16]
  unfold halve
  cases hm : x.msb with
  | true =>
    have hle : 32768 ≤ x.toNat := by simpa [BitVec.msb_eq_decide] using hm
    have hneg : x.toInt = -((65536 - x.toNat : Nat) : Int) := by
      rw [BitVec.toInt_eq_msb_cond, hm, if_pos rfl]
      omega
    rw [if_pos rfl, BitVec.toNat_neg, BitVec.toNat_ushiftRight, BitVec.toNat_neg, hneg, Int.neg_tdiv,
      Int.tdiv_eq_ediv_of_nonneg (by omega), Nat.shiftRight_eq_div_pow]
    omega
  | false =>
    have hpos : x.toInt = x.toNat := by
      rw [BitVec.toInt_eq_msb_cond, hm, if_neg Bool.false_ne_true]
    rw [if_neg Bool.false_ne_true, BitVec.toNat_ushiftRight, hpos, Int.tdiv_eq_ediv_of_nonneg (by omega),
      Nat.shiftRight_eq_div_pow]
    omega

theorem exec_hlv (ac : AcNo) (s : State) :
    exec (.hlv ac) s = .next ((s.withAc ac (BitVec.ofInt 16 ((s.ac.get ac).toInt.tdiv 2))).next 1) := by
  rw [← halve_eq_tdiv]
  exact runInstr_updateAc ac 1 halve s

/-! ## Two accumulators -/

theorem exec_anc (acs acd : AcNo) (s : State) :
    exec (.anc acs acd) s = .next ((s.withAc acd (~~~s.ac.get acs &&& s.ac.get acd)).next 1) :=
  runInstr_updateAcd acs acd (fun x y => ~~~x &&& y) s

theorem exec_ior (acs acd : AcNo) (s : State) :
    exec (.ior acs acd) s = .next ((s.withAc acd (s.ac.get acs ||| s.ac.get acd)).next 1) :=
  runInstr_updateAcd acs acd (fun x y => x ||| y) s

theorem exec_xor (acs acd : AcNo) (s : State) :
    exec (.xor acs acd) s = .next ((s.withAc acd (s.ac.get acs ^^^ s.ac.get acd)).next 1) :=
  runInstr_updateAcd acs acd (fun x y => x ^^^ y) s

theorem exec_xch (acs acd : AcNo) (s : State) :
    exec (.xch acs acd) s = .next (((s.withAc acs (s.ac.get acd)).withAc acd (s.ac.get acs)).next 1) := rfl

/-- The one bits counted from either end (41_fixed_point R259). -/
theorem popcount_eq_countP (x : Word) : popcount x = (List.range 16).countP fun k => x.getMsbD k := by
  have hrev : (List.range 16).reverse = (List.range 16).map fun k => 15 - k := by decide
  unfold popcount
  rw [← List.countP_eq_length_filter, ← List.countP_reverse, hrev, List.countP_map]
  refine List.countP_congr fun k hk => ?_
  have hlt : k < 16 := List.mem_range.mp hk
  simp [BitVec.getMsbD, hlt]

theorem exec_cob (acs acd : AcNo) (s : State) :
    exec (.cob acs acd) s =
      .next ((s.withAc acd (s.ac.get acd +
        BitVec.ofNat 16 ((List.range 16).countP fun k => (s.ac.get acs).getMsbD k))).next 1) := by
  rw [← popcount_eq_countP]
  exact runInstr_updateAcd acs acd (fun x y => y + BitVec.ofNat 16 (popcount x)) s

/-- Settles O11: every form is an accumulator made a function of accumulators. -/
theorem accumulatorResults : Obligations.AccumulatorResults := by
  unfold Obligations.AccumulatorResults
  intro ac acs acd n i s
  exact ⟨exec_addi ac i s, exec_andi ac i s, exec_iori ac i s, exec_xori ac i s, exec_adi n ac s, exec_sbi n ac s,
    exec_hxl n ac s, exec_hxr n ac s, exec_hlv ac s, exec_anc acs acd s, exec_ior acs acd s, exec_xor acs acd s,
    exec_cob acs acd s, exec_xch acs acd s⟩

/-! ## Leading zeroes -/

/-- Below bit `k` the count stops at the first one bit, or with none at `k`. -/
theorem leadZerosFrom_eq (x : Word) : ∀ (k n : Nat), n ≤ k → (∀ j, j < n → x.getLsbD (k - 1 - j) = false) →
    (n = k ∨ x.getLsbD (k - 1 - n) = true) → leadZerosFrom x k = n := by
  intro k
  induction k with
  | zero =>
    intro n hn _ _
    exact (Nat.le_zero.mp hn).symm
  | succ k ih =>
    intro n hn hzero hone
    rw [leadZerosFrom]
    cases n with
    | zero =>
      have htop : x.getLsbD k = true := hone.resolve_left (Nat.succ_ne_zero k).symm
      rw [if_pos htop]
    | succ n =>
      have htop : x.getLsbD k = false := hzero 0 (Nat.succ_pos n)
      have hrest : leadZerosFrom x k = n := by
        refine ih n (Nat.le_of_succ_le_succ hn) (fun j hj => ?_) (hone.imp Nat.succ.inj fun h => ?_)
        · rw [← hzero (j + 1) (Nat.succ_lt_succ hj)]
          congr 1
          omega
        · rw [← h]
          congr 1
          omega
      rw [htop, if_neg Bool.false_ne_true, hrest]

/-- The number of high-order zeroes is the place of the first one bit, 16 for none (41_fixed_point R260). -/
theorem leadZeros_eq {x : Word} {n : Nat} (hn : n ≤ 16) (hzero : ∀ k, k < n → x.getMsbD k = false)
    (hone : n = 16 ∨ x.getMsbD n = true) : leadZeros x = n := by
  refine leadZerosFrom_eq x 16 n hn (fun k hk => ?_) (hone.imp_right fun h => ?_)
  · have hlt : k < 16 := by omega
    simpa [BitVec.getMsbD, hlt] using hzero k hk
  · simp only [BitVec.getMsbD, Bool.and_eq_true] at h
    exact h.2

theorem exec_lob (acs acd : AcNo) (s : State) :
    exec (.lob acs acd) s =
      .next ((s.withAc acd (s.ac.get acd + BitVec.ofNat 16 (leadZeros (s.ac.get acs)))).next 1) :=
  runInstr_updateAcd acs acd (fun x y => y + BitVec.ofNat 16 (leadZeros x)) s

/-- LRB adds the count only where the accumulators differ, and clears the bit in either case (41_fixed_point R261). -/
theorem exec_lrb (acs acd : AcNo) (s : State) :
    exec (.lrb acs acd) s =
      .next (((if acs = acd then s else
        s.withAc acd (s.ac.get acd + BitVec.ofNat 16 (leadZeros (s.ac.get acs)))).withAc acs
          (clearLead (s.ac.get acs))).next 1) := by
  apply runInstr_ok
  rw [run_bind_ok (run_getAc acs s), run_bind_ok (run_getAc acd s)]
  by_cases h : acs = acd
  · rw [if_pos h, if_pos h]
    rfl
  · rw [if_neg h, if_neg h]
    rfl

/-- Settles O12: the place of the first one bit is what LOB and LRB count. -/
theorem leadingBits : Obligations.LeadingBits := by
  unfold Obligations.LeadingBits
  intro acs acd s n hn hzero hone
  have hcount : leadZeros (s.ac.get acs) = n := leadZeros_eq hn hzero hone
  rw [exec_lob, exec_lrb, clearLead, hcount]
  exact ⟨rfl, rfl⟩

end Sys2Proof.Laws
end

section
/-!
Proofs of O13 and O14: the logical shifts, of one accumulator and of a pair, and the multiplications and the unsigned
division (41_fixed_point). A shift count is read once as a signed number; a 32-bit product once as its two halves.
-/

namespace Sys2Proof.Laws

open Sys2Proof.Machine

/-! ## Accumulator pairs -/

@[simp] theorem run_getPair (i : AcNo) (s : State) : getPair i s = .ok (s.pair i) s := rfl

@[simp] theorem run_setPair (i : AcNo) (v : DWord) (s : State) : setPair i v s = .ok () (s.withPair i v) := rfl

/-- A pair written and the program counter moved on is how the double-word instructions end. -/
theorem run_setPair_advance (i : AcNo) (v : DWord) (s : State) :
    (do setPair i v; advance 1 : M Unit) s = .ok () ((s.withPair i v).next 1) := rfl

/-! ## Shifts -/

/-- The 8-bit count as a signed number: up by it, or down by its magnitude (41_fixed_point R241, R247). -/
theorem shiftBy_eq {w : Nat} (x : Word) (v : BitVec w) :
    shiftBy x v =
      if 0 ≤ (x.setWidth 8).toInt then v <<< (x.setWidth 8).toInt.toNat else v >>> (-(x.setWidth 8).toInt).toNat := by
  have hcount : lowByte x = x.setWidth 8 := (BitVec.setWidth_eq_extractLsb' (by omega)).symm
  unfold shiftBy
  simp only [hcount]
  generalize x.setWidth 8 = k
  have hk := k.isLt
  rw [BitVec.toInt_eq_msb_cond]
  cases hm : k.msb with
  | true =>
    have hle : 128 ≤ k.toNat := by simpa [BitVec.msb_eq_decide] using hm
    have hdown : (-k).toNat = (-((k.toNat : Int) - (2 ^ 8 : Nat))).toNat := by
      rw [BitVec.toNat_neg]
      omega
    rw [if_pos rfl, if_pos rfl, if_neg (by omega), hdown]
  | false =>
    rw [if_neg Bool.false_ne_true, if_neg Bool.false_ne_true, if_pos (Int.natCast_nonneg _), Int.toNat_natCast]

theorem exec_lsh (acs acd : AcNo) (s : State) :
    exec (.lsh acs acd) s = .next ((s.withAc acd (shiftBy (s.ac.get acs) (s.ac.get acd))).next 1) :=
  runInstr_updateAcd acs acd (fun x y => shiftBy x y) s

theorem exec_dlsh (acs acd : AcNo) (s : State) :
    exec (.dlsh acs acd) s = .next ((s.withPair acd (shiftBy (s.ac.get acs) (s.pair acd))).next 1) := by
  change execDlsh acs acd s = _
  unfold execDlsh
  apply runInstr_ok
  rw [run_bind_ok (run_getAc acs s), run_bind_ok (run_getPair acd s)]
  exact run_setPair_advance acd _ s

theorem exec_dhxl (n : BitVec 2) (ac : AcNo) (s : State) :
    exec (.dhxl n ac) s = .next ((s.withPair ac (s.pair ac <<< (4 * (n.toNat + 1)))).next 1) := by
  change execDhxl n ac s = _
  unfold execDhxl
  apply runInstr_ok
  rw [run_bind_ok (run_getPair ac s)]
  exact run_setPair_advance ac _ s

theorem exec_dhxr (n : BitVec 2) (ac : AcNo) (s : State) :
    exec (.dhxr n ac) s = .next ((s.withPair ac (s.pair ac >>> (4 * (n.toNat + 1)))).next 1) := by
  change execDhxr n ac s = _
  unfold execDhxr
  apply runInstr_ok
  rw [run_bind_ok (run_getPair ac s)]
  exact run_setPair_advance ac _ s

/-- Settles O13: the counted shifts read their count as a signed number, the hex shifts have it in the instruction. -/
theorem shiftResults : Obligations.ShiftResults := by
  unfold Obligations.ShiftResults
  intro acs acd n s k
  rw [← shiftBy_eq, ← shiftBy_eq]
  exact ⟨exec_lsh acs acd s, exec_dlsh acs acd s, exec_dhxl n acd s, exec_dhxr n acd s⟩

/-! ## Multiplication -/

/-- The high half of a number's 32 bits is that of the number over 65536, whether or not it is negative. -/
theorem high_ofInt (k : Int) : (BitVec.ofInt 32 k).extractLsb' 16 16 = BitVec.ofInt 16 (k / 65536) := by
  apply BitVec.eq_of_toNat_eq
  rw [BitVec.extractLsb'_toNat, BitVec.toNat_ofInt, BitVec.toNat_ofInt, Nat.shiftRight_eq_div_pow]
  omega

theorem low_ofInt (k : Int) : (BitVec.ofInt 32 k).extractLsb' 0 16 = BitVec.ofInt 16 k := by
  apply BitVec.eq_of_toNat_eq
  rw [BitVec.extractLsb'_toNat, BitVec.toNat_ofInt, BitVec.toNat_ofInt, Nat.shiftRight_zero]
  omega

/-- A pair that is set to a number has its two halves. -/
theorem withPair_ofInt (s : State) (k : Int) :
    s.withPair 0 (BitVec.ofInt 32 k) = (s.withAc 0 (BitVec.ofInt 16 (k / 65536))).withAc 1 (BitVec.ofInt 16 k) := by
  rw [State.withPair, high_ofInt, low_ofInt]
  rfl

theorem withPair_ofNat (s : State) (p : Nat) :
    s.withPair 0 (BitVec.ofNat 32 p) = (s.withAc 0 (BitVec.ofNat 16 (p / 65536))).withAc 1 (BitVec.ofNat 16 p) := by
  have hhigh : BitVec.ofInt 16 ((p : Int) / 65536) = BitVec.ofNat 16 (p / 65536) := BitVec.ofInt_natCast 16 (p / 65536)
  rw [← BitVec.ofInt_natCast, withPair_ofInt, hhigh, BitVec.ofInt_natCast]

theorem exec_mul (s : State) :
    exec .mul s = .next ((s.withPair 0
      (BitVec.ofNat 32 ((s.ac.get 1).toNat * (s.ac.get 2).toNat + (s.ac.get 0).toNat))).next 1) := by
  change execMul s = _
  unfold execMul
  apply runInstr_ok
  rw [run_bind_ok (run_getAc 0 s), run_bind_ok (run_getAc 1 s), run_bind_ok (run_getAc 2 s)]
  exact run_setPair_advance 0 _ s

theorem exec_muls (s : State) :
    exec .muls s = .next ((s.withPair 0
      (BitVec.ofInt 32 ((s.ac.get 1).toInt * (s.ac.get 2).toInt + (s.ac.get 0).toInt))).next 1) := by
  change execMuls s = _
  unfold execMuls
  apply runInstr_ok
  rw [run_bind_ok (run_getAc 0 s), run_bind_ok (run_getAc 1 s), run_bind_ok (run_getAc 2 s)]
  exact run_setPair_advance 0 _ s

/-! ## Unsigned division -/

/-- The number a pair of words is. -/
theorem toNat_append_words (x y : Word) : (x ++ y : DWord).toNat = x.toNat * 65536 + y.toNat := by
  rw [BitVec.toNat_append, ← Nat.shiftLeft_add_eq_or_of_lt y.isLt, Nat.shiftLeft_eq]

/-- The dividend of the divisions is AC0 and AC1 (41_fixed_point R238). -/
theorem toNat_pair_zero (s : State) : (s.pair 0).toNat = (s.ac.get 0).toNat * 65536 + (s.ac.get 1).toNat :=
  toNat_append_words (s.ac.get 0) (s.ac.get 1)

/-- A divisor not above the high half overflows, the operands left (41_fixed_point R238). -/
theorem exec_div_overflow {s : State} (h : (s.ac.get 2).toNat ≤ (s.ac.get 0).toNat) :
    exec .div s = .next ({ s with cry := true }.next 1) := by
  apply runInstr_ok
  rw [run_bind_ok (run_getAc 0 s), run_bind_ok (run_getAc 2 s), run_bind_ok (run_getPair 0 s), if_pos h]
  rfl

/-- A greater divisor divides, carry cleared (41_fixed_point R238). -/
theorem exec_div_fits {s : State} (h : (s.ac.get 0).toNat < (s.ac.get 2).toNat) :
    exec .div s = .next ({ (s.withAc 0 (BitVec.ofNat 16 ((s.pair 0).toNat % (s.ac.get 2).toNat))).withAc 1
      (BitVec.ofNat 16 ((s.pair 0).toNat / (s.ac.get 2).toNat)) with cry := false }.next 1) := by
  apply runInstr_ok
  rw [run_bind_ok (run_getAc 0 s), run_bind_ok (run_getAc 2 s), run_bind_ok (run_getPair 0 s), if_neg (Nat.not_le.mpr h)]
  rfl

/-- Settles O14: the products by their halves, the division by its two cases. -/
theorem multiplyDivide : Obligations.MultiplyDivide := by
  unfold Obligations.MultiplyDivide
  intro s p q n d
  refine ⟨?_, ?_, exec_div_overflow, fun h => ?_⟩
  · rw [exec_mul, withPair_ofNat]
  · rw [exec_muls, withPair_ofInt]
  · rw [exec_div_fits h, toNat_pair_zero]

end Sys2Proof.Laws
end

section
/-!
Proofs of O15 and O16, the signed divisions and the decimal instructions (41_fixed_point). Each pair shares one piece of the
model, which is run once in its two cases: with a result, and with free values in its place.
-/

namespace Sys2Proof.Laws

open Sys2Proof.Machine

@[simp] theorem run_drawBit (s : State) :
    drawBit s = .ok (decide ((Config.free64 s.freeIdx).setWidth 1 = 1)) { s with freeIdx := s.freeIdx + 1 } := rfl

/-- An instruction whose first part goes on is the instruction of its rest. -/
theorem runInstr_bind_ok {α : Type} {m : M α} {f : α → M Unit} {s t : State} {a : α} (h : m s = .ok a t) :
    runInstr (m >>= f) s = runInstr (f a) t := by
  unfold runInstr
  rw [run_bind_ok h]

/-! ## Signed division -/

/-- The truncated quotient exists and is a number of 16 bits (41_fixed_point R239, D71). -/
def QuotientFits (n d : Int) : Prop := d ≠ 0 ∧ -32768 ≤ n.tdiv d ∧ n.tdiv d ≤ 32767

theorem toInt_eq_zero_iff (d : Word) : d.toInt = 0 ↔ d = 0 := by
  rw [← BitVec.toInt_zero (w := 16), BitVec.toInt_inj]
  rfl

/-- The test of the division is that the quotient does not fit. -/
theorem divideGuard_iff (n : DWord) (d : Word) :
    (d = 0 || n.toInt.tdiv d.toInt < -32768 || 32767 < n.toInt.tdiv d.toInt) = true ↔
      ¬ QuotientFits n.toInt d.toInt := by
  unfold QuotientFits
  rw [Ne, toInt_eq_zero_iff]
  simp only [Bool.or_eq_true, decide_eq_true_eq]
  by_cases hd : d = 0
  · simp [hd]
  · simp only [hd, false_or, not_false_eq_true, true_and]
    omega

/-- Where the quotient fits the division ends with it and the remainder, carry cleared (41_fixed_point R239). -/
theorem run_signedDivide_fits {n : DWord} {s : State} (h : QuotientFits n.toInt (s.ac.get 2).toInt) :
    signedDivide n s = .ok () ({ (s.withAc 0 (BitVec.ofInt 16 (n.toInt.tmod (s.ac.get 2).toInt))).withAc 1
      (BitVec.ofInt 16 (n.toInt.tdiv (s.ac.get 2).toInt)) with cry := false }.next 1) := by
  unfold signedDivide
  rw [run_bind_ok (run_getAc 2 s)]
  dsimp only
  rw [if_neg fun hg => (divideGuard_iff n (s.ac.get 2)).mp hg h]
  rfl

/-- Where it does not, with any values, carry set (41_fixed_point R239). -/
theorem run_signedDivide_overflow {n : DWord} {s : State} (h : ¬ QuotientFits n.toInt (s.ac.get 2).toInt) :
    ∃ x y : Word, signedDivide n s = .ok ()
      ({ (s.withAc 0 x).withAc 1 y with cry := true, freeIdx := s.freeIdx + 2 }.next 1) := by
  refine ⟨(Config.free64 s.freeIdx).setWidth 16, (Config.free64 (s.freeIdx + 1)).setWidth 16, ?_⟩
  unfold signedDivide
  rw [run_bind_ok (run_getAc 2 s)]
  dsimp only
  rw [if_pos ((divideGuard_iff n (s.ac.get 2)).mpr h)]
  rfl

theorem exec_divs (s : State) : exec .divs s = runInstr (signedDivide (s.pair 0)) s := by
  change execDivs s = _
  unfold execDivs
  exact runInstr_bind_ok (run_getPair 0 s)

/-- The sign of AC1 above AC1: the dividend of DIVX (41_fixed_point R240). -/
def signExtended (x : Word) : DWord := (if x.msb then (0o177777 : Word) else 0) ++ x

theorem toInt_signExtended (x : Word) : (signExtended x).toInt = x.toInt := by
  have hx := x.isLt
  unfold signExtended
  rw [BitVec.toInt_eq_toNat_cond, BitVec.toInt_eq_msb_cond, toNat_append_words]
  cases hm : x.msb with
  | true =>
    have hle : 32768 ≤ x.toNat := by simpa [BitVec.msb_eq_decide] using hm
    rw [if_pos rfl, if_pos rfl, show (0o177777 : Word).toNat = 65535 from rfl, if_neg (by omega)]
    omega
  | false =>
    have hlt : x.toNat < 32768 := by simpa [BitVec.msb_eq_decide] using hm
    rw [if_neg Bool.false_ne_true, if_neg Bool.false_ne_true, show (0 : Word).toNat = 0 from rfl, if_pos (by omega)]
    omega

/-- DIVX is the division of AC1 with its sign in AC0 (41_fixed_point R240). -/
theorem exec_divx (s : State) :
    exec .divx s = runInstr (signedDivide (signExtended (s.ac.get 1)))
      (s.withAc 0 (if (s.ac.get 1).msb then 0o177777 else 0)) := by
  change execDivx s = _
  unfold execDivx
  rw [runInstr_bind_ok (run_getAc 1 s), runInstr_bind_ok (run_setAc 0 _ s), runInstr_bind_ok (run_getPair 0 _)]
  rfl

/-- Settles O15: the two divisions differ in their dividend only, and AC0 is written in either case. -/
theorem signedDivide : Obligations.SignedDivide := by
  unfold Obligations.SignedDivide
  intro s d result fits
  refine ⟨fun h => ?_, fun h => ?_, fun h => ?_, fun h => ?_⟩
  · rw [exec_divs]
    exact runInstr_ok (run_signedDivide_fits h)
  · rw [exec_divx]
    rw [← toInt_signExtended] at h ⊢
    exact runInstr_ok (run_signedDivide_fits h)
  · obtain ⟨x, y, hrun⟩ := run_signedDivide_overflow h
    exact ⟨x, y, (exec_divs s).trans (runInstr_ok hrun)⟩
  · rw [← toInt_signExtended] at h
    obtain ⟨x, y, hrun⟩ := run_signedDivide_overflow (s := s.withAc 0 (if (s.ac.get 1).msb then 0o177777 else 0)) h
    exact ⟨x, y, (exec_divx s).trans (runInstr_ok hrun)⟩

/-! ## Decimal -/

theorem digitOf_eq_mod (x : Word) : digitOf x = x.toNat % 16 := by
  unfold digitOf
  rw [BitVec.extractLsb'_toNat, Nat.shiftRight_zero]

/-- A digit in the place of the last one. -/
theorem withDigit_eq_ofNat (x : Word) (d : BitVec 4) : withDigit x d = BitVec.ofNat 16 (x.toNat / 16 * 16 + d.toNat) := by
  have hx := x.isLt
  have hd := d.isLt
  apply BitVec.eq_of_toNat_eq
  unfold withDigit
  rw [BitVec.toNat_append, ← Nat.shiftLeft_add_eq_or_of_lt hd, Nat.shiftLeft_eq, BitVec.extractLsb'_toNat,
    BitVec.toNat_ofNat, Nat.shiftRight_eq_div_pow]
  omega

/-- Bits 12-15 of an accumulator and carry replaced. -/
def digitSet (s : State) (acd : AcNo) (d : Nat) (e : Bool) : State :=
  { s.withAc acd (BitVec.ofNat 16 ((s.ac.get acd).toNat / 16 * 16 + d)) with cry := e }

theorem run_setDigit (acd : AcNo) (d : BitVec 4) (e : Bool) (s : State) :
    setDigit acd d e s = .ok () (digitSet s acd d.toNat e) := by
  unfold digitSet
  rw [← withDigit_eq_ofNat]
  rfl

/-- On decimal digits the instruction ends with its operation's digit and carry (41_fixed_point R234, R235). -/
theorem runInstr_decimal_digits (op : Nat → Nat → Bool → BitVec 4 × Bool) {acs acd : AcNo} {s : State}
    (hx : (s.ac.get acs).toNat % 16 ≤ 9) (hy : (s.ac.get acd).toNat % 16 ≤ 9) :
    let r := op ((s.ac.get acs).toNat % 16) ((s.ac.get acd).toNat % 16) s.cry
    runInstr (decimal op acs acd) s = .next ((digitSet s acd r.1.toNat r.2).next 1) := by
  have hguard : ¬ (decide (9 < digitOf (s.ac.get acs)) || decide (9 < digitOf (s.ac.get acd))) = true := by
    simp only [digitOf_eq_mod, Bool.or_eq_true, decide_eq_true_eq]
    omega
  intro r
  apply runInstr_ok
  unfold decimal
  rw [run_bind_ok (run_get s)]
  dsimp only
  rw [if_neg hguard, digitOf_eq_mod, digitOf_eq_mod, run_bind_ok (run_setDigit acd _ _ s)]
  rfl

/-- With a digit above nine any digit and carry come out, the same whatever the operation (41_fixed_point R234, R235). -/
theorem runInstr_decimal_free {acs acd : AcNo} {s : State}
    (h : 9 < (s.ac.get acs).toNat % 16 ∨ 9 < (s.ac.get acd).toNat % 16) :
    ∃ (d : BitVec 4) (e : Bool), ∀ op, runInstr (decimal op acs acd) s =
      .next ({ digitSet s acd d.toNat e with freeIdx := s.freeIdx + 2 }.next 1) := by
  have hguard : (decide (9 < digitOf (s.ac.get acs)) || decide (9 < digitOf (s.ac.get acd))) = true := by
    simpa only [digitOf_eq_mod, Bool.or_eq_true, decide_eq_true_eq] using h
  refine ⟨(Config.free64 s.freeIdx).setWidth 4, decide ((Config.free64 (s.freeIdx + 1)).setWidth 1 = 1), fun op => ?_⟩
  apply runInstr_ok
  unfold decimal
  rw [run_bind_ok (run_get s)]
  dsimp only
  rw [if_pos hguard, run_bind_ok (run_drawFree 4 s), run_bind_ok (run_drawBit _), run_bind_ok (run_setDigit acd _ _ _)]
  rfl

/-- The digit and carry of a decimal sum (41_fixed_point R234). -/
theorem decimalAdd_eq (x y : Nat) (c : Bool) :
    (decimalAdd x y c).1.toNat = (x + y + c.toNat) % 10 ∧ (decimalAdd x y c).2 = decide (10 ≤ x + y + c.toNat) := by
  refine ⟨?_, rfl⟩
  unfold decimalAdd
  rw [BitVec.toNat_ofNat]
  omega

/-- The digit and carry of a decimal difference: carry falls with a borrow (41_fixed_point R235). -/
theorem decimalSub_eq {x y : Nat} (hx : x ≤ 9) (hy : y ≤ 9) (c : Bool) :
    (decimalSub x y c).1.toNat = (10 + y + c.toNat - (x + 1)) % 10 ∧
      (decimalSub x y c).2 = decide (x + 1 ≤ y + c.toNat) := by
  have hc : (!c).toNat + c.toNat = 1 := by cases c <;> rfl
  unfold decimalSub
  by_cases hborrow : y < x + (!c).toNat
  · simp only [if_pos hborrow, BitVec.toNat_ofNat]
    refine ⟨by omega, (decide_eq_false ?_).symm⟩
    omega
  · simp only [if_neg hborrow, BitVec.toNat_ofNat]
    refine ⟨by omega, (decide_eq_true ?_).symm⟩
    omega

theorem exec_dad (acs acd : AcNo) (s : State) : exec (.dad acs acd) s = runInstr (decimal decimalAdd acs acd) s := rfl

theorem exec_dsb (acs acd : AcNo) (s : State) : exec (.dsb acs acd) s = runInstr (decimal decimalSub acs acd) s := rfl

/-- Settles O16: one run of the decimal piece for digits and one for the rest, and what the operations are. -/
theorem decimalResults : Obligations.DecimalResults := by
  unfold Obligations.DecimalResults
  intro acs acd s x y c set
  refine ⟨fun hx hy => ⟨?_, ?_⟩, fun h => ?_⟩
  · obtain ⟨hdigit, hcarry⟩ := decimalAdd_eq x y s.cry
    rw [exec_dad, runInstr_decimal_digits decimalAdd hx hy, hdigit, hcarry]
    rfl
  · obtain ⟨hdigit, hcarry⟩ := decimalSub_eq hx hy s.cry
    rw [exec_dsb, runInstr_decimal_digits decimalSub hx hy, hdigit, hcarry]
    rfl
  · obtain ⟨d, e, hrun⟩ := runInstr_decimal_free h
    exact ⟨d, e, hrun decimalAdd, hrun decimalSub⟩

end Sys2Proof.Laws
end

section
/-!
Proofs of O17 and O18, the loads and stores of words, bytes and addresses (42_data_movement). The addresses are read once
as sums modulo 2^15, and a byte of a word once as a byte of memory, which turns the write of a byte into its frame.
-/

namespace Sys2Proof.Laws

open Sys2Proof.Machine

/-! ## Addresses as numbers -/

/-- Bits 1-15 of a word are its number modulo 2^15 (20_memory R112). -/
theorem setWidth_addr_eq_ofInt {w : Nat} (x : BitVec w) : x.setWidth 15 = BitVec.ofInt 15 x.toNat := by
  rw [BitVec.ofInt_natCast, BitVec.ofNat_toNat]

theorem addr_eq_ofInt (a : Addr) : a = BitVec.ofInt 15 a.toNat := by
  rw [← setWidth_addr_eq_ofInt, BitVec.setWidth_eq]

/-- An address after one more word, as a number. -/
theorem addr_succ_eq_ofInt (a : Addr) : a + 1 = BitVec.ofInt 15 ((a.toNat : Int) + 1) := by
  rw [BitVec.ofInt_add, ← addr_eq_ofInt]
  rfl

/-- The short addresses, the displacement signed but for the absolute form (20_memory R112). -/
theorem shortIa_values (s : State) (ind : Bool) (d : BitVec 8) :
    ([.abs, .pc, .ac2, .ac3] : List Index).map (fun i => shortIa s ⟨ind, i, d⟩) =
      [(d.toNat : Int), s.pc.toNat + d.toInt, (s.ac.get 2).toNat + d.toInt, (s.ac.get 3).toNat + d.toInt].map
        (BitVec.ofInt 15) := by
  have hdisp : d.signExtend 15 = BitVec.ofInt 15 d.toInt := rfl
  simp only [List.map_cons, List.map_nil, shortIa, indexOf, hdisp, BitVec.ofInt_add, ← setWidth_addr_eq_ofInt,
    BitVec.setWidth_eq]

/-- The extended addresses (20_memory R113). -/
theorem extIa_values (s : State) (ind : Bool) (x : Addr) :
    ([.abs, .pc, .ac2, .ac3] : List Index).map (fun i => extIa s ⟨ind, i, x⟩) =
      [(x.toNat : Int), s.pc.toNat + 1 + x.toNat, (s.ac.get 2).toNat + x.toNat, (s.ac.get 3).toNat + x.toNat].map
        (BitVec.ofInt 15) := by
  simp only [List.map_cons, List.map_nil, extIa, indexOf, BitVec.ofInt_add _ (x.toNat : Int), ← addr_succ_eq_ofInt,
    ← setWidth_addr_eq_ofInt, BitVec.setWidth_eq]

/-! ## Byte pointers and bytes of a word -/

theorem toNat_bpWord (w : Word) : (bpWord w).toNat = w.toNat / 2 := by
  have hw := w.isLt
  rw [bpWord, BitVec.extractLsb'_toNat, Nat.shiftRight_eq_div_pow]
  omega

theorem bpRight_eq (w : Word) : bpRight w = decide (w.toNat % 2 = 1) := by
  rw [bpRight, BitVec.getLsbD, Nat.testBit_zero]

theorem bpWord_eq_ofInt (w : Word) : bpWord w = BitVec.ofInt 15 (w.toNat / 2 : Nat) := by
  rw [← toNat_bpWord, ← addr_eq_ofInt]

/-- The addresses of the extended byte instructions (42_data_movement R292). -/
theorem extByteAddr_values (s : State) (w : Word) :
    ([.abs, .pc, .ac2, .ac3] : List Index).map (fun i => extByteAddr s i w) =
      [((w.toNat / 2 : Nat) : Int), s.pc.toNat + 1 + (w.toNat / 2 : Nat), (s.ac.get 2).toNat + (w.toNat / 2 : Nat),
        (s.ac.get 3).toNat + (w.toNat / 2 : Nat)].map (BitVec.ofInt 15) := by
  simp only [List.map_cons, List.map_nil, extByteAddr, byteIndex, indexOf, BitVec.ofInt_add _ ((w.toNat / 2 : Nat) : Int),
    ← addr_succ_eq_ofInt, ← setWidth_addr_eq_ofInt, ← bpWord_eq_ofInt, zero_add]

@[simp] theorem highByte_wordOfBytes (hi lo : BitVec 8) : highByte (wordOfBytes hi lo) = hi := by
  have hlo := lo.isLt
  apply BitVec.eq_of_toNat_eq
  rw [toNat_highByte, toNat_wordOfBytes]
  omega

@[simp] theorem lowByte_wordOfBytes (hi lo : BitVec 8) : lowByte (wordOfBytes hi lo) = lo := by
  have hlo := lo.isLt
  apply BitVec.eq_of_toNat_eq
  rw [toNat_lowByte, toNat_wordOfBytes]
  omega

/-- A byte of a word reads as it was put in. -/
@[simp] theorem byteOf_withByte_same (w : Word) (right : Bool) (b : BitVec 8) : byteOf (withByte w right b) right = b := by
  cases right
  · exact highByte_wordOfBytes b _
  · exact lowByte_wordOfBytes _ b

/-- The other byte of the word stands. -/
@[simp] theorem byteOf_withByte_other (w : Word) (right : Bool) (b : BitVec 8) :
    byteOf (withByte w right b) (!right) = byteOf w (!right) := by
  cases right
  · exact lowByte_wordOfBytes b _
  · exact highByte_wordOfBytes _ b

/-- The bytes of a memory word are the two of its place, the left one first (20_memory R106). -/
theorem byteOf_readWord (m : List Host.Cell) (pa : Nat) (right : Bool) :
    byteOf (Memory.readWord m pa) right = Memory.read m (2 * pa + right.toNat) := by
  cases right
  · exact highByte_wordOfBytes _ _
  · exact lowByte_wordOfBytes _ _

/-- A byte stored in a word of memory leaves every other byte of memory (20_memory R121). -/
theorem read_writeWord_withByte (m : List Host.Cell) {pa x : Nat} {right : Bool} (b : BitVec 8)
    (h : x ≠ 2 * pa + right.toNat) :
    Memory.read (Memory.writeWord m pa (withByte (Memory.readWord m pa) right b)) x = Memory.read m x := by
  by_cases hword : x / 2 = pa
  · have hother : x = 2 * pa + (!right).toNat := by
      cases right <;> simp only [Bool.toNat_false, Bool.toNat_true, Bool.not_false, Bool.not_true] at h ⊢ <;> omega
    rw [hother, ← byteOf_readWord, ← byteOf_readWord, readWord_writeWord_same, byteOf_withByte_other]
  · exact read_writeWord_other m _ hword

/-! ## Byte references at a word address -/

theorem run_byteReadAt {s : State} (h : Supervisor s) (a : Addr) (right : Bool) :
    byteReadAt a right s = .ok (byteOf (s.wordAt a) right) s := by
  unfold byteReadAt
  rw [run_bind_ok (run_memRead h a), run_pure]

theorem run_byteWriteAt {s : State} (h : Supervisor s) (a : Addr) (right : Bool) (b : BitVec 8) :
    byteWriteAt a right b s = .ok () (s.withWord a (withByte (s.wordAt a) right b)) := by
  unfold byteWriteAt
  rw [run_bind_ok (run_memRead h a), run_memWrite h]

/-! ## Loads in supervisor mode -/

section
variable {s : State} (h : Supervisor s)
include h

theorem exec_lda {ac : AcNo} {sa : ShortAddr} {e : Addr} (he : s.shortAt sa = some e) :
    exec (.lda ac sa) s = .next ((s.withAc ac (s.wordAt e)).next 1) := by
  change execLda ac sa s = _
  unfold execLda
  apply runInstr_ok
  rw [run_bind_ok (run_shortEaData h he), run_bind_ok (run_dataRead h e), run_bind_ok (run_setAc ac _ s), run_advance]

theorem exec_elda {ac : AcNo} {xa : ExtAddr} {e : Addr} (he : s.extAt xa = some e) :
    exec (.elda ac xa) s = .next ((s.withAc ac (s.wordAt e)).next 2) := by
  change execElda ac xa s = _
  unfold execElda
  apply runInstr_ok
  rw [run_bind_ok (run_extEaData h he), run_bind_ok (run_dataRead h e), run_bind_ok (run_setAc ac _ s), run_advance]

theorem exec_elef {ac : AcNo} {xa : ExtAddr} {e : Addr} (he : s.extAt xa = some e) :
    exec (.elef ac xa) s = .next ((s.withAc ac (joinWord false e)).next 2) := by
  change execElef ac xa s = _
  unfold execElef
  apply runInstr_ok
  rw [run_bind_ok (run_extEa h he), run_bind_ok (run_setAc ac _ s), run_advance]

theorem exec_ldb (acs acd : AcNo) :
    exec (.ldb acs acd) s = .next ((s.withAc acd ((s.byteAt (s.ac.get acs)).setWidth 16)).next 1) := by
  change execLdb acs acd s = _
  unfold execLdb
  apply runInstr_ok
  rw [run_bind_ok (run_getAc acs s), run_bind_ok (run_byteRead h _), run_bind_ok (run_setAc acd _ s), run_advance]

theorem exec_eldb (ac : AcNo) (idx : Index) (disp : Word) :
    exec (.eldb ac idx disp) s =
      .next ((s.withAc ac ((byteOf (s.wordAt (extByteAddr s idx disp)) (bpRight disp)).setWidth 16)).next 2) := by
  change execEldb ac idx disp s = _
  unfold execEldb
  apply runInstr_ok
  rw [run_bind_ok (run_get s), run_bind_ok (run_byteReadAt h _ _), run_bind_ok (run_setAc ac _ s), run_advance]

end

/-! ## LDA with the map off, whatever page 31 stands for -/

/-- Only logical page 31 is mapped when the map is off (47_map R575). -/
theorem unmappedPhys_eq_ite (s : State) (a : Addr) :
    unmappedPhys s a = if a.toNat / 1024 = 31 then s.p31.toNat * 1024 + a.toNat % 1024 else a.toNat := by
  have ha := a.isLt
  have hpage : logicalPage a = 31 ↔ a.toNat / 1024 = 31 := by
    rw [← BitVec.toNat_inj, logicalPage, BitVec.extractLsb'_toNat, Nat.shiftRight_eq_div_pow]
    change _ = 31 ↔ _
    omega
  unfold unmappedPhys pageOffset
  simp only [hpage]

/-- With the map off and no single cycle waiting a data read is one of its physical word. -/
theorem run_dataRead_unmapped {s : State} (hm : s.mapOn = false) (hsc : s.scPending = false) (hq : Quiet s) (a : Addr) :
    dataRead a s = physRead (unmappedPhys s a) s := by
  unfold dataRead memRead cpuRead
  rw [run_bind_ok (run_get s), if_neg (by simp [hsc]), run_bind_ok (run_get s), if_neg (by simp [hm]),
    run_bind_ok (run_dchService hq)]

/-- LDA of a direct address loads what its data read delivers. -/
theorem exec_lda_direct {s t : State} {ac : AcNo} {sa : ShortAddr} {v : Word} (hind : sa.ind = false)
    (hread : dataRead (shortIa s sa) s = .ok v t) : exec (.lda ac sa) s = .next ((t.withAc ac v).next 1) := by
  have hea : shortEaData sa s = .ok (shortIa s sa) s := by
    unfold shortEaData resolveBy
    rw [run_bind_ok (run_get s), hind]
    rfl
  change execLda ac sa s = _
  unfold execLda
  apply runInstr_ok
  rw [run_bind_ok hea, run_bind_ok hread, run_bind_ok (run_setAc ac v t), run_advance]

/-! ## LEF in user mode -/

/-- LEF loads the address its field resolves to (42_data_movement R290). -/
theorem exec_lef {s t : State} {ac : AcNo} {sa : ShortAddr} {e : Addr} (hea : resolve sa.ind (shortIa s sa) s = .ok e t) :
    exec (.lef ac sa) s = .next ((t.withAc ac (joinWord false e)).next 1) := by
  change execLef ac sa s = _
  unfold execLef shortEa
  apply runInstr_ok
  rw [bind_assoc, run_bind_ok (run_get s), run_bind_ok hea, run_bind_ok (run_setAc ac _ t), run_advance]

/-- Settles O17: the addresses as sums, LDA through the physical word it reads, the supervisor's loads each by its own
lemma, and LEF by what its field resolves to. -/
theorem loads : Obligations.Loads := by
  unfold Obligations.Loads
  refine ⟨fun s ind d x w => ?_, fun s ac sa hm hsc hq hind => ?_, fun s ac acs acd sa xa e idx disp => ⟨fun h => ?_, ?_⟩⟩
  · exact ⟨shortIa_values s ind d, extIa_values s ind x, extByteAddr_values s w, toNat_bpWord w, bpRight_eq w,
      toNat_highByte w, toNat_lowByte w⟩
  · intro a pa
    have hread : dataRead (shortIa s sa) s = physRead pa s := by
      rw [run_dataRead_unmapped hm hsc hq, unmappedPhys_eq_ite]
    refine ⟨fun hpa => ?_, fun hpa => ⟨(Config.free64 s.freeIdx).setWidth 16, ?_⟩⟩
    · exact exec_lda_direct hind (hread.trans (run_physRead hpa (quiet_findFault hq pa)))
    · exact exec_lda_direct hind (hread.trans (run_physRead_beyond (Nat.not_lt.mpr hpa)))
  · exact ⟨exec_lda h, fun he => ⟨exec_elda h he, exec_elef h he⟩, exec_ldb h acs acd, exec_eldb h ac idx disp⟩
  · intro _ _
    refine ⟨fun hind => exec_lef ?_, fun hind hp hq he => exec_lef ?_⟩
    · rw [hind]
      rfl
    · rw [hind]
      exact run_chain_mapped _ 0 s _ e hq hp he

/-! ## Stores in supervisor mode -/

section
variable {s : State} (h : Supervisor s)
include h

theorem exec_sta {ac : AcNo} {sa : ShortAddr} {e : Addr} (he : s.shortAt sa = some e) :
    exec (.sta ac sa) s = .next ((s.withWord e (s.ac.get ac)).next 1) := by
  change execSta ac sa s = _
  unfold execSta
  apply runInstr_ok
  rw [run_bind_ok (run_shortEaData h he), run_bind_ok (run_getAc ac s), run_bind_ok (run_dataWrite h e _), run_advance]

theorem exec_esta {ac : AcNo} {xa : ExtAddr} {e : Addr} (he : s.extAt xa = some e) :
    exec (.esta ac xa) s = .next ((s.withWord e (s.ac.get ac)).next 2) := by
  change execEsta ac xa s = _
  unfold execEsta
  apply runInstr_ok
  rw [run_bind_ok (run_extEaData h he), run_bind_ok (run_getAc ac s), run_bind_ok (run_dataWrite h e _), run_advance]

theorem exec_stb (acs acd : AcNo) :
    exec (.stb acs acd) s = .next ((s.withByteAt (s.ac.get acs) (lowByte (s.ac.get acd))).next 1) := by
  change execStb acs acd s = _
  unfold execStb
  apply runInstr_ok
  rw [run_bind_ok (run_getAc acs s), run_bind_ok (run_getAc acd s), run_bind_ok (run_byteWrite h _ _), run_advance]

theorem exec_estb (ac : AcNo) (idx : Index) (disp : Word) :
    exec (.estb ac idx disp) s =
      .next ((s.withWord (extByteAddr s idx disp)
        (withByte (s.wordAt (extByteAddr s idx disp)) (bpRight disp) (lowByte (s.ac.get ac)))).next 2) := by
  change execEstb ac idx disp s = _
  unfold execEstb
  apply runInstr_ok
  rw [run_bind_ok (run_get s), run_bind_ok (run_byteWriteAt h _ _ _), run_advance]

end

/-- Settles O18: each store is one word replaced, of a byte store the word with that byte replaced. -/
theorem stores : Obligations.Stores := by
  unfold Obligations.Stores
  intro s ac acs acd sa xa e idx disp h word
  refine ⟨wordAt_withWord_same s e _, sameOutside_withWord s _ (List.mem_singleton_self e), exec_sta h, exec_esta h,
    ⟨_, exec_stb h acs acd, rfl, ?_, fun b hb => read_writeWord_withByte s.mem _ hb⟩,
    ⟨_, exec_estb h ac idx disp, rfl, ?_, fun b hb => read_writeWord_withByte s.mem _ hb⟩⟩
  · unfold State.byteAt State.withByteAt
    rw [wordAt_withWord_same, byteOf_withByte_same]
  · rw [wordAt_withWord_same, byteOf_withByte_same]

end Sys2Proof.Laws
end

section
/-!
Proofs of O19 and O24, the block moves and the bit instructions (42_data_movement): one run of `blockStep` for both moves,
one of `updateBit` and `readBit` for the five bit instructions, and the bits of a word under a mask.
-/

namespace Sys2Proof.Laws

open Sys2Proof.Machine

/-! ## Addresses in accumulators -/

/-- The address part of a word put together of a bit and an address. -/
@[simp] theorem setWidth_joinWord (b : Bool) (a : Addr) : (joinWord b a).setWidth 15 = a :=
  BitVec.setWidth_append_eq_right

theorem toNat_joinWord_false (a : Addr) : (joinWord false a).toNat = a.toNat := by
  rw [joinWord, BitVec.toNat_append]
  simp

/-- A word with bit 0 zero is its address part. -/
theorem joinWord_setWidth {w : Word} (h : w.msb = false) : joinWord false (w.setWidth 15) = w := by
  have hlt : w.toNat < 32768 := by simpa [BitVec.msb_eq_decide] using h
  apply BitVec.eq_of_toNat_eq
  rw [toNat_joinWord_false, BitVec.toNat_setWidth]
  omega

/-- The next address of a block, bit 0 zero (42_data_movement R301). -/
@[simp] theorem nextAddr_joinWord (a : Addr) : nextAddr (joinWord false a) = joinWord false (a + 1) := by
  rw [nextAddr, setWidth_joinWord]

/-- The words a chain reads are all it depends on. -/
theorem follow_congr {s t : State} (hmem : t.mem = s.mem) : ∀ (n : Nat) (a : Addr), t.follow n a = s.follow n a
  | 0, _ => rfl
  | n + 1, a => by
    have hword : t.wordAt a = s.wordAt a := by unfold State.wordAt; rw [hmem]
    unfold State.follow
    rw [hword, follow_congr hmem n]

/-- What a word names does not depend on the accumulators. -/
@[simp] theorem wordTarget_withAc (s : State) (i : AcNo) (v w : Word) :
    (s.withAc i v).wordTarget w = s.wordTarget w := by
  unfold State.wordTarget State.resolved State.pointerEnd
  rw [follow_congr (s := s) (withAc_mem s i v)]

/-- An accumulator that names an address, possibly indirect, holds that address afterwards (42_data_movement R300). -/
theorem run_resolveAc {s : State} (h : Supervisor s) {i : AcNo} {a : Addr} (ha : s.wordTarget (s.ac.get i) = some a) :
    resolveAc i s = .ok () (s.withAc i (joinWord false a)) := by
  unfold resolveAc
  rw [run_bind_ok (run_getAc i s)]
  cases hind : (s.ac.get i).msb with
  | true =>
    rw [State.wordTarget, hind] at ha
    rw [if_pos rfl, run_bind_ok (run_resolve h ha), run_setAc]
  | false =>
    rw [State.wordTarget, hind] at ha
    obtain rfl : (s.ac.get i).setWidth 15 = a := Option.some.inj ha
    rw [if_neg Bool.false_ne_true, run_pure, joinWord_setWidth hind, State.withAc, quad_set_get]

/-! ## One word of a block -/

/-- After one word `w` of a block has been moved to `b`, the source being at `a`. -/
def blockMoved (s : State) (a b : Addr) (w : Word) : State :=
  { s.withWord b w with
    ac := ⟨s.ac.get 0, s.ac.get 1 - 1, joinWord false (a + 1), joinWord false (b + 1)⟩ }

/-- The state with the source and destination of a block move resolved. -/
def blockResolved (s : State) (a b : Addr) : State := (s.withAc 2 (joinWord false a)).withAc 3 (joinWord false b)

/-- A count outside 1 to 77777 octal moves nothing (42_data_movement R300, D76). -/
theorem run_blockStep_none (f : State → Word → Word) (again : M Unit) {s : State}
    (hn : s.ac.get 1 = 0 ∨ (s.ac.get 1).msb = true) : blockStep f again s = .ok () (s.next 1) := by
  unfold blockStep
  rw [run_bind_ok (run_getAc 1 s), if_pos (by simpa using hn), run_advance]

/-- A count inside moves one word, changed by `f`, and ends the instruction with the last (42_data_movement R300, R301). -/
theorem run_blockStep_word (f : State → Word → Word) {s : State} (h : Supervisor s) {a b : Addr} (hn : s.ac.get 1 ≠ 0)
    (hm : (s.ac.get 1).msb = false) (ha : s.wordTarget (s.ac.get 2) = some a) (hb : s.wordTarget (s.ac.get 3) = some b) :
    blockStep f (pure ()) s = .ok () (
      if s.ac.get 1 = 1 then (blockMoved s a b (f (blockResolved s a b) (s.wordAt a))).next 1
      else blockMoved s a b (f (blockResolved s a b) (s.wordAt a))) := by
  have hdst : resolveAc 3 (s.withAc 2 (joinWord false a)) = .ok () (blockResolved s a b) :=
    run_resolveAc (supervisor_withAc h 2 _) ((wordTarget_withAc s 2 _ _).trans hb)
  have hu : Supervisor (blockResolved s a b) := h
  have hac2 : (blockResolved s a b).ac.get 2 = joinWord false a := rfl
  have hac3 : (blockResolved s a b).ac.get 3 = joinWord false b := rfl
  unfold blockStep
  rw [run_bind_ok (run_getAc 1 s), if_neg (by rw [hm]; simpa using hn), run_bind_ok (run_resolveAc h ha),
    run_bind_ok hdst, run_bind_ok (run_getAc 2 _), run_bind_ok (run_memRead hu _), run_bind_ok (run_getAc 3 _),
    run_bind_ok (run_get _), run_bind_ok (run_memWrite hu _ _), run_bind_ok (run_setAc 1 _ _),
    run_bind_ok (run_setAc 2 _ _), run_bind_ok (run_setAc 3 _ _), hac2, hac3, setWidth_joinWord, setWidth_joinWord,
    nextAddr_joinWord, nextAddr_joinWord]
  split <;> rfl

theorem exec_blm (s : State) : exec .blm s = runInstr (blockStep (fun _ w => w) (pure ())) s := rfl

theorem exec_bam (s : State) : exec .bam s = runInstr (blockStep (fun u w => w + u.ac.get 0) (pure ())) s := rfl

/-- Settles O19: both moves are `blockStep`, BAM with AC0 added, which resolving the addresses leaves. -/
theorem blockMoves : Obligations.BlockMoves := by
  unfold Obligations.BlockMoves
  intro s a b h n after
  refine ⟨fun hn => ?_, fun hn hm ha hb => ?_⟩
  · exact ⟨runInstr_ok (run_blockStep_none _ _ hn), runInstr_ok (run_blockStep_none _ _ hn)⟩
  · exact ⟨runInstr_ok (run_blockStep_word _ h hn hm ha hb), runInstr_ok (run_blockStep_word _ h hn hm ha hb),
      fun w => sameOutside_withWord s w (List.mem_singleton_self b)⟩

/-! ## Bits of a word -/

/-- The mask of a bit has that bit alone (20_memory R125). -/
theorem getMsbD_bitMask (k : BitVec 4) {j : Nat} (hj : j < 16) : (bitMask k).getMsbD j = decide (j = k.toNat) := by
  have htop : ∀ m < 16, (0x8000 : Word).getMsbD m = decide (m = 0) := by decide
  rw [bitMask, BitVec.getMsbD_ushiftRight, decide_eq_true hj, Bool.true_and, htop (j - k.toNat) (by omega),
    ← decide_not, ← Bool.decide_and]
  exact decide_eq_decide.mpr (by omega)

/-- A mask put into a word sets its bit and leaves the others. -/
theorem getMsbD_setBit (w : Word) (k : BitVec 4) {j : Nat} (hj : j < 16) :
    (w ||| bitMask k).getMsbD j = (w.getMsbD j || decide (j = k.toNat)) := by
  rw [BitVec.getMsbD_or, getMsbD_bitMask k hj]

/-- A mask taken out of a word clears its bit and leaves the others. -/
theorem getMsbD_clearBit (w : Word) (k : BitVec 4) {j : Nat} (hj : j < 16) :
    (w &&& ~~~bitMask k).getMsbD j = (w.getMsbD j && decide (j ≠ k.toNat)) := by
  rw [BitVec.getMsbD_and, BitVec.getMsbD_not, getMsbD_bitMask k hj, decide_eq_true hj, Bool.true_and, decide_not]

theorem toNat_bitNumber (d : Word) : (bitNumber d).toNat = d.toNat % 16 := BitVec.toNat_setWidth 4 d

theorem toNat_bitOffset (d : Word) : (bitOffset d).toNat = d.toNat / 16 := by
  have hd := d.isLt
  rw [bitOffset, BitVec.toNat_setWidth, BitVec.extractLsb'_toNat, Nat.shiftRight_eq_div_pow]
  omega

/-! ## The addressed bit -/

section
variable {s : State} (h : Supervisor s) {acs acd : AcNo} {a : Addr} (ha : s.bitPlace acs acd = some a)
include h ha

theorem run_bitWord : bitWord acs acd s = .ok a s := by
  unfold bitWord
  unfold State.bitPlace at ha
  rw [run_bind_ok (run_getAc acd s)]
  by_cases hsame : acs = acd
  · rw [if_pos hsame] at ha ⊢
    rw [Option.some.inj ha, run_pure]
  · rw [if_neg hsame] at ha ⊢
    obtain ⟨base, hbase, rfl⟩ := Option.map_eq_some_iff.mp ha
    rw [run_bind_ok (run_getAc acs s), run_bind_ok (run_resolveWord h hbase), run_pure]

theorem run_readBit : readBit acs acd s = .ok (bitOf (s.wordAt a) (bitNumber (s.ac.get acd))) s := by
  unfold readBit
  rw [run_bind_ok (run_getAc acd s), run_bind_ok (run_bitWord h ha), run_bind_ok (run_memRead h a), run_pure]

/-- The addressed bit written by any write that replaces its word. -/
theorem run_updateBit {wr : Addr → Word → M Unit} (hwr : ∀ v, wr a v s = .ok () (s.withWord a v)) (v : Bool) :
    updateBit wr acs acd v s = .ok (bitOf (s.wordAt a) (bitNumber (s.ac.get acd))) (s.withWord a
      (if v then s.wordAt a ||| bitMask (bitNumber (s.ac.get acd))
        else s.wordAt a &&& ~~~bitMask (bitNumber (s.ac.get acd)))) := by
  unfold updateBit
  rw [run_bind_ok (run_getAc acd s), run_bind_ok (run_bitWord h ha), run_bind_ok (run_memRead h a),
    run_bind_ok (hwr _), run_pure]

theorem exec_bto : exec (.bto acs acd) s =
    .next ((s.withWord a (s.wordAt a ||| bitMask (bitNumber (s.ac.get acd)))).next 1) := by
  change execBto acs acd s = _
  unfold execBto
  apply runInstr_ok
  rw [run_bind_ok (run_updateBit h ha (run_memWrite h a) true), if_pos rfl, run_advance]

theorem exec_btz : exec (.btz acs acd) s =
    .next ((s.withWord a (s.wordAt a &&& ~~~bitMask (bitNumber (s.ac.get acd)))).next 1) := by
  change execBtz acs acd s = _
  unfold execBtz
  apply runInstr_ok
  rw [run_bind_ok (run_updateBit h ha (run_memWrite h a) false), if_neg Bool.false_ne_true, run_advance]

/-- SZBO writes with the memory bus held, and skips on the bit as it was (42_data_movement R314). -/
theorem exec_szbo : exec (.szbo acs acd) s =
    .next ((s.withWord a (s.wordAt a ||| bitMask (bitNumber (s.ac.get acd)))).nextSkip 1
      (!(s.wordAt a).getMsbD (bitNumber (s.ac.get acd)).toNat)) := by
  change execSzbo acs acd s = _
  unfold execSzbo
  apply runInstr_ok
  rw [run_bind_ok (run_updateBit h ha (run_memWriteHeld h a) true), if_pos rfl, run_skipIf]
  rfl

theorem exec_snb : exec (.snb acs acd) s =
    .next (s.nextSkip 1 ((s.wordAt a).getMsbD (bitNumber (s.ac.get acd)).toNat)) := by
  change execSnb acs acd s = _
  unfold execSnb
  apply runInstr_ok
  rw [run_bind_ok (run_readBit h ha), run_skipIf]
  rfl

theorem exec_szb : exec (.szb acs acd) s =
    .next (s.nextSkip 1 (!(s.wordAt a).getMsbD (bitNumber (s.ac.get acd)).toNat)) := by
  change execSzb acs acd s = _
  unfold execSzb
  apply runInstr_ok
  rw [run_bind_ok (run_readBit h ha), run_skipIf]
  rfl

end

/-- Settles O24: the five instructions by `updateBit` and `readBit`, and the masks bit by bit. -/
theorem bitResults : Obligations.BitResults := by
  unfold Obligations.BitResults
  intro s acs acd a h ha k w one zero
  refine ⟨exec_bto h ha, exec_btz h ha, exec_szbo h ha, exec_snb h ha, exec_szb h ha,
    sameOutside_withWord s _ (List.mem_singleton_self a), sameOutside_withWord s _ (List.mem_singleton_self a),
    fun j hj => ⟨?_, ?_⟩, fun d => ⟨toNat_bitNumber d, toNat_bitOffset d⟩⟩
  · rw [wordAt_withWord_same]
    exact getMsbD_setBit w k hj
  · rw [wordAt_withWord_same]
    exact getMsbD_clearBit w k hj

end Sys2Proof.Laws
end

section
/-!
Proofs of O20 to O23, the character instructions (42_data_movement R302 to R305). A string is a length and a pointer in two
accumulators; what it offers and how it moves on is said once for both strings of CMV and CMP. Of CMT and CTR one run covers
every way a byte can end.
-/

namespace Sys2Proof.Laws

open Sys2Proof.Machine

/-! ## Reading after an accumulator is written -/

@[simp] theorem get_withAc_same (s : State) (i : AcNo) (v : Word) : (s.withAc i v).ac.get i = v := quad_get_set_same s.ac i v

theorem get_withAc_other (s : State) {i j : AcNo} (v : Word) (h : i ≠ j) : (s.withAc i v).ac.get j = s.ac.get j :=
  quad_get_set_other s.ac v h

@[simp] theorem wordAt_withAc (s : State) (i : AcNo) (v : Word) (a : Addr) : (s.withAc i v).wordAt a = s.wordAt a := rfl

@[simp] theorem byteAt_withAc (s : State) (i : AcNo) (v bp : Word) : (s.withAc i v).byteAt bp = s.byteAt bp := rfl

/-! ## Strings in accumulators -/

/-- A length goes toward zero and a pointer with its direction (42_data_movement, section 5). -/
theorem decLen_stepBy_eq (l bp : Word) :
    decLen l = (if l.toInt < 0 then l + 1 else l - 1) ∧ stepBy l bp = (if l.toInt < 0 then bp - 1 else bp + 1) := by
  unfold decLen stepBy
  simp only [BitVec.msb_eq_toInt, decide_eq_true_eq, and_self]

/-- The byte a string offers, a space when it is exhausted (42_data_movement R302). -/
def offeredByte (s : State) (len ptr : AcNo) : BitVec 8 := if s.ac.get len = 0 then 0o40 else s.byteAt (s.ac.get ptr)

/-- The length of a string after a byte of it, none of an exhausted one. -/
def lengthAfter (l : Word) : Word := if l = 0 then 0 else decLen l

/-- The pointer of a string of length `l` after a byte of it. -/
def pointerAfter (l p : Word) : Word := if l = 0 then p else stepBy l p

/-- A string moved on by one byte. -/
def stringPassed (s : State) (len ptr : AcNo) : State :=
  (s.withAc ptr (pointerAfter (s.ac.get len) (s.ac.get ptr))).withAc len (lengthAfter (s.ac.get len))

/-- An exhausted string stays where it is. -/
theorem stringPassed_exhausted {s : State} {len ptr : AcNo} (hl : s.ac.get len = 0) : stringPassed s len ptr = s := by
  have hptr : s.withAc ptr (s.ac.get ptr) = s := by rw [State.withAc, quad_set_get]
  have hlen : s.withAc len 0 = s := by rw [State.withAc, ← hl, quad_set_get]
  rw [stringPassed, pointerAfter, if_pos hl, lengthAfter, if_pos hl, hptr, hlen]

theorem run_passByte (len ptr : AcNo) (s : State) : passByte len ptr s = .ok () (stringPassed s len ptr) := by
  unfold passByte
  rw [run_bind_ok (run_getAc len s)]
  by_cases hl : s.ac.get len = 0
  · rw [if_pos hl, stringPassed_exhausted hl, run_pure]
  · rw [if_neg hl, run_bind_ok (run_getAc ptr s), run_bind_ok (run_setAc ptr _ s), run_setAc, stringPassed,
      pointerAfter, if_neg hl, lengthAfter, if_neg hl]

theorem run_peekByte {s : State} (h : Supervisor s) (len ptr : AcNo) :
    peekByte len ptr s = .ok (offeredByte s len ptr) s := by
  unfold peekByte offeredByte
  rw [run_bind_ok (run_getAc len s)]
  by_cases hl : s.ac.get len = 0
  · rw [if_pos hl, if_pos hl, run_pure]
    rfl
  · rw [if_neg hl, if_neg hl, run_bind_ok (run_getAc ptr s), run_byteRead h]

theorem run_takeByte {s : State} (h : Supervisor s) (len ptr : AcNo) :
    takeByte len ptr s = .ok (offeredByte s len ptr) (stringPassed s len ptr) := by
  unfold takeByte offeredByte
  rw [run_bind_ok (run_getAc len s)]
  by_cases hl : s.ac.get len = 0
  · rw [if_pos hl, if_pos hl, stringPassed_exhausted hl, run_pure]
    rfl
  · rw [if_neg hl, if_neg hl, run_bind_ok (run_getAc ptr s), run_bind_ok (run_byteRead h _),
      run_bind_ok (run_setAc ptr _ s), run_bind_ok (run_setAc len _ _), run_pure, stringPassed, pointerAfter,
      if_neg hl, lengthAfter, if_neg hl]

/-! ## CMV -/

/-- CMV has ended where the destination is full, carry saying that source bytes remain (42_data_movement R302, D74). -/
theorem run_cmvEnd (s : State) : cmvEnd s = .ok () (
    if s.ac.get 0 = 0 then { s with cry := decide (s.ac.get 1 ≠ 0) }.next 1 else s) := by
  unfold cmvEnd
  rw [run_bind_ok (run_getAc 0 s)]
  split <;> rfl

/-- After one byte of CMV, before its end is tested. -/
def cmvMoved (s : State) : State :=
  { s.withByteAt (s.ac.get 2) (offeredByte s 1 3) with
    ac := ⟨decLen (s.ac.get 0), lengthAfter (s.ac.get 1), stepBy (s.ac.get 0) (s.ac.get 2),
      pointerAfter (s.ac.get 1) (s.ac.get 3)⟩ }

theorem exec_cmv_full {s : State} (hd : s.ac.get 0 = 0) :
    exec .cmv s = .next ({ s with cry := decide (s.ac.get 1 ≠ 0) }.next 1) := by
  change execCmv s = _
  unfold execCmv
  apply runInstr_ok
  rw [run_bind_ok (run_getAc 0 s), if_pos hd, run_cmvEnd, if_pos hd]

theorem exec_cmv_byte {s : State} (h : Supervisor s) (hd : s.ac.get 0 ≠ 0) :
    exec .cmv s = .next (if decLen (s.ac.get 0) = 0 then
      { cmvMoved s with cry := decide (lengthAfter (s.ac.get 1) ≠ 0) }.next 1 else cmvMoved s) := by
  have hp : Supervisor (stringPassed s 1 3) := h
  change execCmv s = _
  unfold execCmv
  apply runInstr_ok
  rw [run_bind_ok (run_getAc 0 s), if_neg hd, run_bind_ok (run_takeByte h 1 3), run_bind_ok (run_getAc 2 _),
    run_bind_ok (run_byteWrite hp _ _), run_bind_ok (run_setAc 2 _ _), run_bind_ok (run_setAc 0 _ _)]
  exact run_cmvEnd (cmvMoved s)

/-- Settles O20: a full destination ends the instruction, else one byte is moved and the end tested. -/
theorem cmvResults : Obligations.CmvResults := by
  unfold Obligations.CmvResults
  intro s h d l b l' t
  exact ⟨exec_cmv_full, exec_cmv_byte h, sameOutside_withWord s _ (List.mem_singleton_self _), decLen_stepBy_eq⟩

/-! ## CMP -/

/-- Both strings exhausted are equal (42_data_movement R303). -/
theorem exec_cmp_exhausted {s : State} (h0 : s.ac.get 0 = 0) (h1 : s.ac.get 1 = 0) :
    exec .cmp s = .next ((s.withAc 1 0).next 1) := by
  change execCmp s = _
  unfold execCmp
  apply runInstr_ok
  rw [run_bind_ok (run_getAc 0 s), run_bind_ok (run_getAc 1 s), if_pos (by rw [h0, h1]; rfl),
    run_bind_ok (run_setAc 1 _ s), run_advance]

section
variable {s : State} (h : Supervisor s) (hlen : ¬ (s.ac.get 0 = 0 ∧ s.ac.get 1 = 0))
include h hlen

/-- Equal bytes are passed, and the last ones end the instruction (42_data_movement R303). -/
theorem exec_cmp_equal (hb : offeredByte s 1 3 = offeredByte s 0 2) :
    exec .cmp s = .next (if lengthAfter (s.ac.get 0) = 0 ∧ lengthAfter (s.ac.get 1) = 0 then
      (stringPassed (stringPassed s 1 3) 0 2).next 1 else stringPassed (stringPassed s 1 3) 0 2) := by
  have hac0 : (stringPassed (stringPassed s 1 3) 0 2).ac.get 0 = lengthAfter (s.ac.get 0) := rfl
  have hac1 : (stringPassed (stringPassed s 1 3) 0 2).ac.get 1 = lengthAfter (s.ac.get 1) := rfl
  change execCmp s = _
  unfold execCmp
  apply runInstr_ok
  rw [run_bind_ok (run_getAc 0 s), run_bind_ok (run_getAc 1 s), if_neg (by simpa using hlen),
    run_bind_ok (run_peekByte h 1 3), run_bind_ok (run_peekByte h 0 2), if_pos hb, run_bind_ok (run_passByte 1 3 s),
    run_bind_ok (run_passByte 0 2 _), run_bind_ok (run_getAc 0 _), run_bind_ok (run_getAc 1 _), hac0, hac1]
  simp only [Bool.and_eq_true, decide_eq_true_eq]
  split <;> rfl

/-- Unequal bytes end the instruction with their order in AC1, the strings left (42_data_movement R303, D77). -/
theorem exec_cmp_unequal (hb : offeredByte s 1 3 ≠ offeredByte s 0 2) :
    exec .cmp s = .next ((s.withAc 1 (compareCode (offeredByte s 1 3) (offeredByte s 0 2))).next 1) := by
  change execCmp s = _
  unfold execCmp
  apply runInstr_ok
  rw [run_bind_ok (run_getAc 0 s), run_bind_ok (run_getAc 1 s), if_neg (by simpa using hlen),
    run_bind_ok (run_peekByte h 1 3), run_bind_ok (run_peekByte h 0 2), if_neg hb, run_bind_ok (run_setAc 1 _ s),
    run_advance]

end

/-- Settles O21: no byte left, an equal pair, an unequal pair. -/
theorem cmpResults : Obligations.CmpResults := by
  unfold Obligations.CmpResults
  intro s h l2 l1 b2 b1 m2 m1 t
  exact ⟨exec_cmp_exhausted, exec_cmp_equal h, exec_cmp_unequal h, decLen_stepBy_eq⟩

/-! ## CMT -/

/-- The bit of a byte in the delimiter table: its high half gives the word, its low half the bit (42_data_movement R304,
D78). -/
def tableBit (s : State) (table : Addr) (b : BitVec 8) : Bool :=
  bitOf (s.wordAt (table + BitVec.ofNat 15 (b.toNat / 16))) (b.setWidth 4)

/-- The table stands in memory. -/
@[simp] theorem tableBit_withAc (s : State) (i : AcNo) (v : Word) (table : Addr) (b : BitVec 8) :
    tableBit (s.withAc i v) table b = tableBit s table b := rfl

theorem run_delimiter {s : State} (h : Supervisor s) (table : Addr) (b : BitVec 8) :
    delimiter table b s = .ok (tableBit s table b) s := by
  have hword : (b.extractLsb' 4 4).setWidth 15 = BitVec.ofNat 15 (b.toNat / 16) := by
    have hb := b.isLt
    apply BitVec.eq_of_toNat_eq
    rw [BitVec.toNat_setWidth, BitVec.extractLsb'_toNat, Nat.shiftRight_eq_div_pow, BitVec.toNat_ofNat]
    omega
  unfold delimiter tableBit
  rw [hword, run_bind_ok (run_memRead h _), run_pure]

/-- The bit a draw delivers. -/
def drawnBit (s : State) : Bool := decide ((Config.free64 s.freeIdx).setWidth 1 = 1)

/-- After the end of CMT in `s`: carry any value (42_data_movement R304). -/
def cmtEnded (s : State) : State := { s with cry := drawnBit s, freeIdx := s.freeIdx + 1 }.next 1

theorem run_cmtEnd (s : State) : cmtEnd s = .ok () (cmtEnded s) := by
  unfold cmtEnd
  rw [run_bind_ok (run_drawBit s), run_bind_ok (run_setCry _ _), run_advance]
  rfl

/-- After one byte of CMT is moved, its table at `table`. -/
def cmtMoved (s : State) (table : Addr) : State :=
  { s.withByteAt (s.ac.get 2) (s.byteAt (s.ac.get 3)) with
    ac := ⟨joinWord false table, decLen (s.ac.get 1), stepBy (s.ac.get 1) (s.ac.get 2),
      stepBy (s.ac.get 1) (s.ac.get 3)⟩ }

/-- CMT ends with nothing moved where no byte is left or a delimiter comes next; any other byte is moved, and the last one
ends it (42_data_movement R304). -/
theorem exec_cmt {s : State} (h : Supervisor s) {table : Addr} (ht : s.wordTarget (s.ac.get 0) = some table) :
    exec .cmt s = .next (
      if s.ac.get 1 = 0 ∨ tableBit s table (s.byteAt (s.ac.get 3)) = true then
        cmtEnded (s.withAc 0 (joinWord false table))
      else if decLen (s.ac.get 1) = 0 then cmtEnded (cmtMoved s table) else cmtMoved s table) := by
  have hu := supervisor_withAc h 0 (joinWord false table)
  change execCmt s = _
  unfold execCmt
  apply runInstr_ok
  rw [run_bind_ok (run_resolveAc h ht), run_bind_ok (run_getAc 1 _), get_withAc_other s _ (by decide)]
  by_cases hl : s.ac.get 1 = 0
  · rw [if_pos hl, if_pos (Or.inl hl), run_cmtEnd]
  · rw [if_neg hl, run_bind_ok (run_getAc 0 _), run_bind_ok (run_getAc 3 _), run_bind_ok (run_byteRead hu _),
      get_withAc_same, setWidth_joinWord, get_withAc_other s _ (by decide), byteAt_withAc,
      run_bind_ok (run_delimiter hu _ _), tableBit_withAc]
    by_cases hhit : tableBit s table (s.byteAt (s.ac.get 3)) = true
    · rw [if_pos hhit, if_pos (Or.inr hhit), run_cmtEnd]
    · rw [if_neg hhit, if_neg (not_or_intro hl hhit), run_bind_ok (run_getAc 2 _), run_bind_ok (run_byteWrite hu _ _),
        run_bind_ok (run_setAc 2 _ _), run_bind_ok (run_setAc 3 _ _), run_bind_ok (run_setAc 1 _ _)]
      split <;> rfl

/-- Settles O22: the three ends of `exec_cmt`. -/
theorem cmtResults : Obligations.CmtResults := by
  unfold Obligations.CmtResults
  intro s table h ht u l b hit t
  have hmove (hl : l ≠ 0) (hhit : hit = false) : ¬ (l = 0 ∨ hit = true) := not_or_intro hl (Bool.eq_false_iff.mp hhit)
  refine ⟨fun hstop => ⟨drawnBit s, ?_⟩, fun hl hhit hleft => ?_, fun hl hhit hlast => ⟨drawnBit s, ?_⟩,
    sameOutside_withWord s _ (List.mem_singleton_self _), decLen_stepBy_eq⟩
  · exact (exec_cmt h ht).trans (congrArg _ (if_pos hstop))
  · exact (exec_cmt h ht).trans (congrArg _ ((if_neg (hmove hl hhit)).trans (if_neg hleft)))
  · exact (exec_cmt h ht).trans (congrArg _ ((if_neg (hmove hl hhit)).trans (if_pos hlast)))

/-! ## CTR -/

/-- The translation of a byte by the table at byte pointer `tbp` (42_data_movement R305). -/
def translated (s : State) (tbp : Word) (b : BitVec 8) : BitVec 8 := s.byteAt (tbp + b.setWidth 16)

theorem run_translate {s : State} (h : Supervisor s) (tbp : Word) (b : BitVec 8) :
    translate tbp b s = .ok (translated s tbp b) s := run_byteRead h _

/-- Translation reads memory only. -/
@[simp] theorem translated_withAc (s : State) (i : AcNo) (v tbp : Word) (b : BitVec 8) :
    translated (s.withAc i v) tbp b = translated s tbp b := rfl

/-- After a byte of CTR at the pointers `p2` and `p3`, the count now `n`: a count of zero ends it (42_data_movement R305). -/
def ctrPassed (s : State) (p2 p3 n : Word) : State :=
  let t : State := { s with ac := ⟨s.ac.get 0, n, p2 + 1, p3 + 1⟩ }
  if n = 0 then t.next 1 else t

theorem run_ctrNext (p2 p3 n : Word) (s : State) : ctrNext p2 p3 n s = .ok () (ctrPassed s p2 p3 n) := by
  unfold ctrNext ctrPassed
  rw [run_bind_ok (run_setAc 2 _ s), run_bind_ok (run_setAc 3 _ _), run_bind_ok (run_setAc 1 _ _)]
  split <;> rfl

/-- A negative count of CTR moves the translated byte of the source; a count of zero ends it; a positive one compares the
translated bytes, equal ones passed, unequal ones ending it with their order in AC1 (42_data_movement R305). -/
theorem exec_ctr {s : State} (h : Supervisor s) {a : Addr} (ha : s.wordTarget (s.ac.get 0) = some a) :
    exec .ctr s = .next (
      let u := s.withAc 0 (joinWord false a)
      let t3 := translated s (s.wordAt a) (s.byteAt (s.ac.get 3))
      let t2 := translated s (s.wordAt a) (s.byteAt (s.ac.get 2))
      if (s.ac.get 1).msb = true then ctrPassed (u.withByteAt (s.ac.get 2) t3) (s.ac.get 2) (s.ac.get 3) (s.ac.get 1 + 1)
      else if s.ac.get 1 = 0 then u.next 1
      else if t3 = t2 then ctrPassed u (s.ac.get 2) (s.ac.get 3) (s.ac.get 1 - 1)
      else (u.withAc 1 (compareCode t3 t2)).next 1) := by
  have hu := supervisor_withAc h 0 (joinWord false a)
  dsimp only
  change execCtr s = _
  unfold execCtr
  apply runInstr_ok
  rw [run_bind_ok (run_resolveAc h ha), run_bind_ok (run_getAc 0 _), run_bind_ok (run_memRead hu _),
    run_bind_ok (run_getAc 1 _), run_bind_ok (run_getAc 2 _), run_bind_ok (run_getAc 3 _), get_withAc_same,
    setWidth_joinWord, wordAt_withAc, get_withAc_other s (j := 1) _ (by decide), get_withAc_other s (j := 2) _ (by decide),
    get_withAc_other s (j := 3) _ (by decide)]
  by_cases hm : (s.ac.get 1).msb = true
  · rw [if_pos hm, if_pos hm, run_bind_ok (run_byteRead hu _), run_bind_ok (run_translate hu _ _),
      run_bind_ok (run_byteWrite hu _ _), run_ctrNext, translated_withAc, byteAt_withAc]
  · rw [if_neg hm, if_neg hm]
    by_cases hn : s.ac.get 1 = 0
    · rw [if_pos hn, if_pos hn, run_advance]
    · rw [if_neg hn, if_neg hn, run_bind_ok (run_byteRead hu _), run_bind_ok (run_translate hu _ _),
        run_bind_ok (run_byteRead hu _), run_bind_ok (run_translate hu _ _), translated_withAc, translated_withAc,
        byteAt_withAc, byteAt_withAc]
      by_cases heq : translated s (s.wordAt a) (s.byteAt (s.ac.get 3)) = translated s (s.wordAt a) (s.byteAt (s.ac.get 2))
      · rw [if_pos heq, if_pos heq, run_ctrNext]
      · rw [if_neg heq, if_neg heq, run_bind_ok (run_setAc 1 _ _), run_advance]

/-- Settles O23: the four ways of `exec_ctr`. -/
theorem ctrResults : Obligations.CtrResults := by
  unfold Obligations.CtrResults
  intro s a h ha tr n a0 t3 t2 stepped moved
  refine ⟨fun hm => ?_, sameOutside_withWord s _ (List.mem_singleton_self _), fun hn => ?_, fun hm hn heq => ?_,
    fun hm hn hne => ?_⟩
  · exact (exec_ctr h ha).trans (congrArg _ (if_pos hm))
  · have hm : ¬ n.msb = true := by rw [hn]; decide
    exact (exec_ctr h ha).trans (congrArg _ ((if_neg hm).trans (if_pos hn)))
  · have hm : ¬ n.msb = true := Bool.eq_false_iff.mp hm
    exact (exec_ctr h ha).trans (congrArg _ ((if_neg hm).trans ((if_neg hn).trans (if_pos heq))))
  · have hm : ¬ n.msb = true := Bool.eq_false_iff.mp hm
    exact (exec_ctr h ha).trans (congrArg _ ((if_neg hm).trans ((if_neg hn).trans (if_neg hne))))

end Sys2Proof.Laws
end

section
/-!
Proof of O26, the values of floating-point numbers (43_floating_point R333, R336, R354, R355, R380). A finished result is
read once, by the shifts its mantissa needs; the floated integer, the normalised number and the truncated product and quotient
follow from it.
-/

namespace Sys2Proof.Laws

open Sys2Proof.Machine

/-! ## The fields of a number (43_floating_point R333) -/

theorem unpack_double_append (s : Bool) (e : BitVec 7) (m : BitVec 56) :
    unpack .double (BitVec.ofBool s ++ e ++ m) = ⟨s, e.toNat, m.toNat⟩ := by
  have hsign : (BitVec.ofBool s ++ e ++ m).msb = s := by
    rw [BitVec.msb_append, BitVec.msb_append]
    cases s <;> rfl
  have hexpo : (BitVec.ofBool s ++ e ++ m).extractLsb' 56 7 = e := by
    rw [BitVec.extractLsb'_append_eq_of_le (by omega)]
    exact BitVec.extractLsb'_append_eq_right
  have hmant : (BitVec.ofBool s ++ e ++ m).extractLsb' 0 56 = m := BitVec.extractLsb'_append_eq_right
  exact congr (congrArg₂ Unp.mk hsign (congrArg BitVec.toNat hexpo)) (congrArg BitVec.toNat hmant)

theorem unpack_single_append (s : Bool) (e : BitVec 7) (m : BitVec 24) (l : BitVec 32) :
    unpack .single (BitVec.ofBool s ++ e ++ m ++ l) = ⟨s, e.toNat, m.toNat⟩ := by
  have hsign : (BitVec.ofBool s ++ e ++ m ++ l).msb = s := by
    rw [BitVec.msb_append, BitVec.msb_append, BitVec.msb_append]
    cases s <;> rfl
  have hexpo : (BitVec.ofBool s ++ e ++ m ++ l).extractLsb' 56 7 = e := by
    rw [BitVec.extractLsb'_append_eq_of_le (by omega), BitVec.extractLsb'_append_eq_of_le (by omega)]
    exact BitVec.extractLsb'_append_eq_right
  have hmant : (BitVec.ofBool s ++ e ++ m ++ l).extractLsb' 32 24 = m := by
    rw [BitVec.extractLsb'_append_eq_of_le (by omega)]
    exact BitVec.extractLsb'_append_eq_right
  exact congr (congrArg₂ Unp.mk hsign (congrArg BitVec.toNat hexpo)) (congrArg BitVec.toNat hmant)

theorem digits_pos (p : Prec) : 0 < p.digits := by cases p <;> decide

/-- One more mantissa digit. -/
theorem pow_digits (p : Prec) : 16 ^ p.digits = 16 * 16 ^ (p.digits - 1) := by
  rw [← Nat.pow_succ', Nat.succ_eq_add_one, Nat.sub_add_cancel (digits_pos p)]

theorem unpack_mant_lt (p : Prec) (x : QWord) : (unpack p x).mant < 16 ^ p.digits := by
  cases p with
  | single => exact (x.extractLsb' 32 24).isLt
  | double => exact (x.extractLsb' 0 56).isLt

theorem unpack_expo_lt (p : Prec) (x : QWord) : (unpack p x).expo < 128 := (x.extractLsb' 56 7).isLt

/-- Single precision reads the first two words of a number. -/
theorem unpack_single_mant (x : QWord) : (unpack .single x).mant = (x.extractLsb' 32 32).toNat % 2 ^ 24 := by
  change (x.extractLsb' 32 24).toNat = _
  rw [BitVec.extractLsb'_toNat, BitVec.extractLsb'_toNat, Nat.mod_mod_of_dvd _ (by decide)]

/-- A packed number has the fields it is packed from. -/
theorem unpack_pack (p : Prec) (s : Bool) {e m : Nat} (he : e < 128) (hm : m < 16 ^ p.digits) :
    unpack p (pack p s e m) = ⟨s, e, m⟩ := by
  have hexpo : (BitVec.ofNat 7 e).toNat = e := Nat.mod_eq_of_lt he
  cases p with
  | single => exact (unpack_single_append s _ _ 0).trans (congrArg₂ (Unp.mk s) hexpo (Nat.mod_eq_of_lt hm))
  | double => exact (unpack_double_append s _ _).trans (congrArg₂ (Unp.mk s) hexpo (Nat.mod_eq_of_lt hm))

theorem pack_single_low (s : Bool) (e m : Nat) : (pack .single s e m).extractLsb' 0 32 = 0 :=
  BitVec.extractLsb'_append_eq_right

/-- The fields of true zero. -/
theorem unpack_zero (p : Prec) : unpack p 0 = ⟨false, 0, 0⟩ := by cases p <;> rfl

theorem isNorm_zero (p : Prec) : isNorm p 0 = true := by cases p <;> rfl

theorem isNorm_of_mant {p : Prec} {x : QWord} (h : 16 ^ (p.digits - 1) ≤ (unpack p x).mant) : isNorm p x = true := by
  rw [isNorm, decide_eq_true h, Bool.or_true]

/-- A number that is true zero or normalised has the mantissa zero or a leading digit (43_floating_point R333). -/
theorem mant_of_isNorm {p : Prec} {x : QWord} (h : isNorm p x = true) :
    (unpack p x).mant = 0 ∨ 16 ^ (p.digits - 1) ≤ (unpack p x).mant := by
  rw [isNorm, Bool.or_eq_true, decide_eq_true_eq] at h
  refine h.imp_left fun hz => ?_
  cases p with
  | single =>
    have htop : x.extractLsb' 32 32 = 0 := of_decide_eq_true hz
    rw [unpack_single_mant, htop]
    rfl
  | double => rw [show x = 0 from of_decide_eq_true hz, unpack_zero]

/-! ## Normalising and finishing (43_floating_point R336) -/

/-- Of a mantissa that `k` shifts bring to its leading digit, those shifts are made. -/
theorem normalise_eq {lim : Nat} : ∀ {k fuel m : Nat} (e : Int), k ≤ fuel → lim ≤ m * 16 ^ k →
    m * 16 ^ k < 16 * lim → normalise lim fuel m e = (m * 16 ^ k, e - k)
  | 0, 0, m, e, _, _, _ => by simp [normalise]
  | 0, fuel + 1, m, e, _, hlo, _ => by
    rw [Nat.pow_zero, Nat.mul_one] at hlo
    simp [normalise, Nat.not_lt.mpr hlo]
  | k + 1, fuel + 1, m, e, hk, hlo, hhi => by
    have hshift : 16 * m * 16 ^ k = m * 16 ^ (k + 1) := by ring
    have hm : m < lim := by
      have : m * 1 ≤ m * 16 ^ k := Nat.mul_le_mul_left m (Nat.one_le_pow _ _ (by omega))
      rw [← hshift, Nat.mul_assoc] at hhi
      omega
    rw [normalise, if_pos hm, normalise_eq (e - 1) (Nat.le_of_succ_le_succ hk) (hshift ▸ hlo) (hshift ▸ hhi), hshift]
    congr 1
    push_cast
    ring

theorem finishFp_zero (p : Prec) (s : Bool) (e : Int) : finishFp p s e 0 = ⟨0, false, false⟩ := if_pos rfl

/-- `k` shifts bring the mantissa to its leading digit, of the P + 1 with the guard digit. -/
def Shifts (p : Prec) (m k : Nat) : Prop := 16 ^ p.digits ≤ m * 16 ^ k ∧ m * 16 ^ k < 16 ^ (p.digits + 1)

/-- A nonzero mantissa has its shifts, at most P. -/
theorem exists_shifts {p : Prec} {m : Nat} (hm : m ≠ 0) (hhi : m < 16 ^ (p.digits + 1)) :
    ∃ k, k ≤ p.digits ∧ Shifts p m k := by
  have hlog : Nat.log 16 m < p.digits + 1 := Nat.log_lt_of_lt_pow hm hhi
  have hle : 16 ^ Nat.log 16 m ≤ m := Nat.pow_log_le_self 16 hm
  have hlt : m < 16 ^ (Nat.log 16 m + 1) := Nat.lt_pow_succ_log_self (by decide) m
  refine ⟨p.digits - Nat.log 16 m, Nat.sub_le _ _, ?_, ?_⟩
  · calc 16 ^ p.digits = 16 ^ Nat.log 16 m * 16 ^ (p.digits - Nat.log 16 m) := by rw [← Nat.pow_add]; congr 1; omega
      _ ≤ m * 16 ^ (p.digits - Nat.log 16 m) := Nat.mul_le_mul_right _ hle
  · calc m * 16 ^ (p.digits - Nat.log 16 m) < 16 ^ (Nat.log 16 m + 1) * 16 ^ (p.digits - Nat.log 16 m) :=
        Nat.mul_lt_mul_of_pos_right hlt (Nat.pow_pos (by decide))
      _ = 16 ^ (p.digits + 1) := by rw [← Nat.pow_add]; congr 1; omega

section
variable {p : Prec} {m k : Nat} (h : Shifts p m k)
include h

theorem Shifts.ne_zero : m ≠ 0 := by
  rintro rfl
  have hpos : 0 < 16 ^ p.digits := Nat.pow_pos (by decide)
  have := h.1
  omega

theorem Shifts.le_digits : k ≤ p.digits := by
  have hlt : 16 ^ k < 16 ^ (p.digits + 1) :=
    (Nat.le_mul_of_pos_left _ (Nat.pos_of_ne_zero h.ne_zero)).trans_lt h.2
  exact Nat.le_of_lt_succ ((Nat.pow_lt_pow_iff_right (by decide)).mp hlt)

/-- The mantissa without its guard digit is one of P digits, the leading one nonzero. -/
theorem Shifts.mant : 16 ^ (p.digits - 1) ≤ m * 16 ^ k / 16 ∧ m * 16 ^ k / 16 < 16 ^ p.digits := by
  obtain ⟨hlo, hhi⟩ := h
  rw [Nat.pow_succ] at hhi
  rw [pow_digits] at hlo
  omega

/-- A nonzero intermediate result is normalised, its exponent corrected by 128 with OVF or UNF (43_floating_point R336). -/
theorem finishFp_eq (s : Bool) {e : Int} (hlo : -128 ≤ e - k) (hhi : e - k ≤ 255) :
    finishFp p s e m =
      ⟨pack p s ((e - k) % 128).toNat (m * 16 ^ k / 16), decide (127 < e - k), decide (e - k < 0)⟩ := by
  have hshift : normalise (16 ^ p.digits) (p.digits + 1) m e = (m * 16 ^ k, e - k) :=
    normalise_eq e (Nat.le_succ_of_le h.le_digits) h.1 (by rw [← Nat.pow_succ']; exact h.2)
  unfold finishFp
  simp only [if_neg h.ne_zero, hshift]
  by_cases hovf : 127 < e - k
  · rw [if_pos hovf, decide_eq_true hovf, decide_eq_false (by omega), show e - k - 128 = (e - k) % 128 by omega]
  · rw [if_neg hovf, decide_eq_false hovf]
    by_cases hunf : e - k < 0
    · rw [if_pos hunf, decide_eq_true hunf, show e - k + 128 = (e - k) % 128 by omega]
    · rw [if_neg hunf, decide_eq_false hunf, Int.emod_eq_of_lt (by omega) (by omega)]

/-- The fields of a finished result. -/
theorem unpack_finishFp (s : Bool) {e : Int} (hlo : -128 ≤ e - k) (hhi : e - k ≤ 255) :
    unpack p (finishFp p s e m).value = ⟨s, ((e - k) % 128).toNat, m * 16 ^ k / 16⟩ := by
  rw [finishFp_eq h s hlo hhi]
  exact unpack_pack p s (by omega) h.mant.2

end

/-! ## Integers as numbers (43_floating_point R354, R355) -/

/-- The digits of a nonzero integer are counted. -/
theorem hexDigits_eq : ∀ {fuel n : Nat}, n ≠ 0 → n < 16 ^ fuel →
    ∃ k, hexDigits fuel n = k + 1 ∧ k < fuel ∧ 16 ^ k ≤ n ∧ n < 16 ^ (k + 1)
  | 0, n, hn, hlt => absurd hlt (by rw [Nat.pow_zero]; omega)
  | fuel + 1, n, hn, hlt => by
    rw [hexDigits, if_neg hn]
    by_cases hsmall : n / 16 = 0
    · rw [hsmall]
      exact ⟨0, by cases fuel <;> rfl, by omega, by omega, by omega⟩
    · have hdiv : n / 16 < 16 ^ fuel := Nat.div_lt_of_lt_mul (by rw [← Nat.pow_succ']; exact hlt)
      obtain ⟨k, hk, hfuel, hlo, hhi⟩ := hexDigits_eq hsmall hdiv
      refine ⟨k + 1, by rw [hk], by omega, ?_, ?_⟩
      · rw [Nat.pow_succ]; omega
      · rw [Nat.pow_succ]; omega

/-- The fields of the number that floats an integer: its digits with the leading one in place, the exponent their number. -/
theorem unpack_floatInt {p : Prec} {v : Int} (hv : v ≠ 0) (hlt : v.natAbs < 16 ^ p.digits) :
    ∃ k, k < p.digits ∧ 16 ^ k ≤ v.natAbs ∧
      unpack p (floatInt p v) = ⟨decide (v < 0), 64 + (k + 1), v.natAbs * 16 ^ (p.digits - (k + 1))⟩ := by
  obtain ⟨k, hk, hdigits, hlo, hhi⟩ := hexDigits_eq (Int.natAbs_ne_zero.mpr hv) hlt
  have hp : p.digits ≤ 14 := by cases p <;> decide
  refine ⟨k, hdigits, hlo, ?_⟩
  unfold floatInt
  simp only [if_neg hv, hk]
  refine unpack_pack p _ (by omega) ?_
  calc v.natAbs * 16 ^ (p.digits - (k + 1)) < 16 ^ (k + 1) * 16 ^ (p.digits - (k + 1)) :=
        Nat.mul_lt_mul_of_pos_right hhi (Nat.pow_pos (by decide))
    _ = 16 ^ p.digits := by rw [← Nat.pow_add]; congr 1; omega

theorem floatInt_value {p : Prec} {v : Int} (hlt : v.natAbs < 16 ^ p.digits) :
    isNorm p (floatInt p v) = true ∧
      (unpack p (floatInt p v)).mant * 16 ^ (unpack p (floatInt p v)).expo = v.natAbs * 16 ^ (64 + p.digits) ∧
      (unpack p (floatInt p v)).sign = decide (v < 0) := by
  by_cases hv : v = 0
  · subst hv
    rw [show floatInt p 0 = 0 from if_pos rfl, unpack_zero]
    exact ⟨isNorm_zero p, by simp, rfl⟩
  · obtain ⟨k, hk, hlo, hfields⟩ := unpack_floatInt hv hlt
    refine ⟨isNorm_of_mant ?_, ?_, ?_⟩ <;> rw [hfields]
    · calc 16 ^ (p.digits - 1) = 16 ^ k * 16 ^ (p.digits - (k + 1)) := by rw [← Nat.pow_add]; congr 1; omega
        _ ≤ v.natAbs * 16 ^ (p.digits - (k + 1)) := Nat.mul_le_mul_right _ hlo
    · change v.natAbs * 16 ^ (p.digits - (k + 1)) * 16 ^ (64 + (k + 1)) = _
      rw [Nat.mul_assoc, ← Nat.pow_add]
      congr 2
      omega

/-! ## Normalising keeps the value (43_floating_point R380) -/

theorem scaledValue_eq (x : QWord) :
    scaledValue x = (if (unpack .double x).sign then -1 else 1) *
      (((unpack .double x).mant * 16 ^ (unpack .double x).expo : Nat) : Int) := by
  unfold scaledValue
  simp only
  cases (unpack .double x).sign with
  | true => exact (Int.neg_one_mul _).symm
  | false => exact (Int.one_mul _).symm

/-- The result of normalising a number (43_floating_point R380). -/
def normalised (x : QWord) : FpResult :=
  finishFp .double (unpack .double x).sign ((unpack .double x).expo : Int) (16 * (unpack .double x).mant)

theorem normalised_keeps (x : QWord) :
    (normalised x).ovf = false ∧ isNorm .double (normalised x).value = true ∧
      ((normalised x).unf = false → scaledValue (normalised x).value = scaledValue x) := by
  unfold normalised
  have hexpo := unpack_expo_lt .double x
  have hmant := unpack_mant_lt .double x
  have hx := scaledValue_eq x
  generalize unpack .double x = u at *
  by_cases hz : u.mant = 0
  · rw [hz, Nat.mul_zero, finishFp_zero]
    rw [hz, Nat.zero_mul, Int.natCast_zero, Int.mul_zero] at hx
    exact ⟨rfl, isNorm_zero .double, fun _ => hx.symm⟩
  · obtain ⟨k, hk, hs⟩ := exists_shifts (p := .double) (m := 16 * u.mant) (by omega)
      (by rw [Nat.pow_succ']; exact Nat.mul_lt_mul_of_pos_left hmant (by decide))
    have hk : k ≤ 14 := hk
    have hfields := unpack_finishFp hs u.sign (e := (u.expo : Int)) (by omega) (by omega)
    refine ⟨?_, isNorm_of_mant ?_, fun hunf => ?_⟩
    · rw [finishFp_eq hs _ (by omega) (by omega)]
      exact decide_eq_false (by omega)
    · rw [hfields]
      exact hs.mant.1
    · rw [finishFp_eq hs _ (by omega) (by omega)] at hunf
      have hnonneg : ¬ (u.expo : Int) - k < 0 := of_decide_eq_false hunf
      have he : (((u.expo : Int) - k) % 128).toNat = u.expo - k := by omega
      have hvalue : 16 * u.mant * 16 ^ k / 16 * 16 ^ (u.expo - k) = u.mant * 16 ^ u.expo := by
        rw [Nat.mul_assoc, Nat.mul_div_cancel_left _ (by decide), Nat.mul_assoc, ← Nat.pow_add]
        congr 2
        omega
      rw [scaledValue_eq, hfields, he, hx, hvalue]

/-! ## Products and quotients are truncated (43_floating_point R336) -/

/-- A mantissa of P or P + 1 digits needs one shift or none. -/
theorem shifts_one_or_none {p : Prec} {m : Nat} (hlo : 16 ^ (p.digits - 1) ≤ m) (hhi : m < 16 ^ (p.digits + 1)) :
    Shifts p m 1 ∨ Shifts p m 0 := by
  unfold Shifts
  rw [Nat.pow_succ] at *
  have := pow_digits p
  omega

/-- A finished mantissa of P or P + 1 digits loses at most its guard digit: the mantissa before it was finished lies between
the result and the next number after it. -/
theorem finishFp_truncates {p : Prec} {m : Nat} (hlo : 16 ^ (p.digits - 1) ≤ m) (hhi : m < 16 ^ (p.digits + 1))
    (s : Bool) {e : Int} (he : -127 ≤ e) (he' : e ≤ 255) (hovf : (finishFp p s e m).ovf = false)
    (hunf : (finishFp p s e m).unf = false) :
    let u := unpack p (finishFp p s e m).value
    0 ≤ e ∧ u.mant * 16 ^ (u.expo + 1) ≤ m * 16 ^ e.toNat ∧
      (m + 1) * 16 ^ e.toNat ≤ (u.mant + 1) * 16 ^ (u.expo + 1) := by
  rcases shifts_one_or_none hlo hhi with hs | hs <;>
    (rw [finishFp_eq hs s (by omega) (by omega)] at hovf hunf; rw [unpack_finishFp hs s (by omega) (by omega)])
  · have h0 : ¬ e - (1 : Nat) < 0 := of_decide_eq_false hunf
    have h127 : ¬ 127 < e - (1 : Nat) := of_decide_eq_false hovf
    have hplace : ((e - (1 : Nat)) % 128).toNat + 1 = e.toNat := by omega
    simp only [hplace, Nat.pow_one, Nat.mul_div_cancel _ (show 0 < 16 by decide)]
    exact ⟨by omega, Nat.le_refl _, Nat.le_refl _⟩
  · have h0 : ¬ e - (0 : Nat) < 0 := of_decide_eq_false hunf
    have h127 : ¬ 127 < e - (0 : Nat) := of_decide_eq_false hovf
    have hplace : ((e - (0 : Nat)) % 128).toNat = e.toNat := by omega
    simp only [hplace, Nat.pow_zero, Nat.mul_one, Nat.pow_succ', ← Nat.mul_assoc]
    exact ⟨by omega, Nat.mul_le_mul_right _ (by omega), Nat.mul_le_mul_right _ (by omega)⟩

/-- The same of a mantissa that is itself a truncated quotient `n / d`, against the exact one. -/
theorem finishFp_div_truncates {p : Prec} {n d : Nat} (hlo : 16 ^ (p.digits - 1) * d ≤ n)
    (hhi : n < 16 ^ (p.digits + 1) * d)
    (s : Bool) {e : Int} (he : -127 ≤ e) (he' : e ≤ 255) (hovf : (finishFp p s e (n / d)).ovf = false)
    (hunf : (finishFp p s e (n / d)).unf = false) :
    let u := unpack p (finishFp p s e (n / d)).value
    0 ≤ e ∧ u.mant * 16 ^ (u.expo + 1) * d ≤ n * 16 ^ e.toNat ∧
      n * 16 ^ e.toNat < (u.mant + 1) * 16 ^ (u.expo + 1) * d := by
  have hd : 0 < d := Nat.pos_of_ne_zero (by rintro rfl; omega)
  obtain ⟨h0, hbelow, habove⟩ := finishFp_truncates ((Nat.le_div_iff_mul_le hd).mpr hlo)
    ((Nat.div_lt_iff_lt_mul hd).mpr hhi) s he he' hovf hunf
  have hpos : 0 < 16 ^ e.toNat := Nat.pow_pos (by decide)
  refine ⟨h0, ?_, ?_⟩
  · calc _ ≤ n / d * 16 ^ e.toNat * d := Nat.mul_le_mul_right d hbelow
      _ = n / d * d * 16 ^ e.toNat := Nat.mul_right_comm _ _ _
      _ ≤ n * 16 ^ e.toNat := Nat.mul_le_mul_right _ (Nat.div_mul_le_self n d)
  · calc n * 16 ^ e.toNat < (n / d + 1) * d * 16 ^ e.toNat :=
        Nat.mul_lt_mul_of_pos_right (by rw [Nat.mul_comm]; exact Nat.lt_mul_div_succ n hd) hpos
      _ = (n / d + 1) * 16 ^ e.toNat * d := Nat.mul_right_comm _ _ _
      _ ≤ _ := Nat.mul_le_mul_right d habove

theorem fpMul_eq (p : Prec) (x y : QWord) :
    fpMul p x y = finishFp p ((unpack p x).sign ^^ (unpack p y).sign) (((unpack p x).expo : Int) + (unpack p y).expo - 64)
      ((unpack p x).mant * (unpack p y).mant / 16 ^ (p.digits - 1)) := rfl

/-- A finished product of mantissas with their leading digits in place is the exact one truncated. -/
theorem finishFp_product {p : Prec} {a b : Nat} (hlo : 16 ^ (p.digits - 1) * 16 ^ (p.digits - 1) ≤ a * b)
    (ha : a < 16 ^ p.digits) (hb : b < 16 ^ p.digits) (s : Bool) {ea eb : Nat} (hea : ea < 128) (heb : eb < 128)
    {r : FpResult} (hr : r = finishFp p s ((ea : Int) + eb - 64) (a * b / 16 ^ (p.digits - 1))) (hovf : r.ovf = false)
    (hunf : r.unf = false) :
    let u := unpack p r.value
    u.mant * 16 ^ u.expo * 16 ^ (64 + p.digits) ≤ a * 16 ^ ea * (b * 16 ^ eb) ∧
      a * 16 ^ ea * (b * 16 ^ eb) < (u.mant + 1) * 16 ^ u.expo * 16 ^ (64 + p.digits) := by
  subst hr
  obtain ⟨P, hP⟩ : ∃ P, p.digits = P + 1 := ⟨p.digits - 1, (Nat.sub_add_cancel (digits_pos p)).symm⟩
  have hhi : a * b < 16 ^ (p.digits + 1) * 16 ^ (p.digits - 1) := by
    calc a * b < 16 ^ p.digits * 16 ^ p.digits := Nat.mul_lt_mul'' ha hb
      _ = 16 ^ (p.digits + 1) * 16 ^ (p.digits - 1) := by rw [hP, Nat.add_sub_cancel]; ring
  obtain ⟨h0, hbelow, habove⟩ := finishFp_div_truncates hlo hhi s (by omega) (by omega) hovf hunf
  generalize unpack p _ = u at *
  have hsum : ea + eb = ((ea : Int) + eb - 64).toNat + 64 := by omega
  generalize ((ea : Int) + eb - 64).toNat = e at *
  have hexact : a * 16 ^ ea * (b * 16 ^ eb) = a * b * 16 ^ e * 16 ^ 64 := by
    rw [Nat.mul_assoc _ _ (16 ^ 64), ← Nat.pow_add, ← hsum]
    ring
  have hplace (m : Nat) :
      m * 16 ^ u.expo * 16 ^ (64 + p.digits) = m * 16 ^ (u.expo + 1) * 16 ^ (p.digits - 1) * 16 ^ 64 := by
    rw [hP, Nat.add_sub_cancel]
    ring
  dsimp only
  rw [hexact, hplace, hplace]
  exact ⟨Nat.mul_le_mul_right _ hbelow, Nat.mul_lt_mul_of_pos_right habove (by decide)⟩

/-- The product of numbers that are true zero or normalised is the exact one truncated (43_floating_point R336). -/
theorem fpMul_truncates {p : Prec} {x y : QWord} (hx : isNorm p x = true) (hy : isNorm p y = true)
    (hovf : (fpMul p x y).ovf = false) (hunf : (fpMul p x y).unf = false) :
    let a := unpack p x
    let b := unpack p y
    let u := unpack p (fpMul p x y).value
    u.mant * 16 ^ u.expo * 16 ^ (64 + p.digits) ≤ a.mant * 16 ^ a.expo * (b.mant * 16 ^ b.expo) ∧
      a.mant * 16 ^ a.expo * (b.mant * 16 ^ b.expo) < (u.mant + 1) * 16 ^ u.expo * 16 ^ (64 + p.digits) := by
  intro a b u
  by_cases hz : a.mant * b.mant = 0
  · have hexact : a.mant * 16 ^ a.expo * (b.mant * 16 ^ b.expo) = 0 := by
      rw [Nat.mul_mul_mul_comm, hz, Nat.zero_mul]
    have hu : u = ⟨false, 0, 0⟩ := by
      have hprod : fpMul p x y = ⟨0, false, false⟩ := by rw [fpMul_eq, hz, Nat.zero_div, finishFp_zero]
      rw [show u = unpack p (fpMul p x y).value from rfl, hprod, unpack_zero]
    rw [hexact, hu]
    simp
  · obtain ⟨ha0, hb0⟩ := Nat.mul_ne_zero_iff.mp hz
    exact finishFp_product (Nat.mul_le_mul ((mant_of_isNorm hx).resolve_left ha0) ((mant_of_isNorm hy).resolve_left hb0))
      (unpack_mant_lt p x) (unpack_mant_lt p y) _ (unpack_expo_lt p x) (unpack_expo_lt p y) (fpMul_eq p x y) hovf hunf

/-- A quotient with the greater dividend has one digit before the point (43_floating_point R336). -/
theorem fpDiv_of_le {p : Prec} {x y : QWord} (h : (unpack p y).mant ≤ (unpack p x).mant) :
    fpDiv p x y = finishFp p ((unpack p x).sign ^^ (unpack p y).sign) ((unpack p x).expo - (unpack p y).expo + 64 + 1)
      ((unpack p x).mant * 16 ^ p.digits / (unpack p y).mant) := if_pos h

theorem fpDiv_of_lt {p : Prec} {x y : QWord} (h : (unpack p x).mant < (unpack p y).mant) :
    fpDiv p x y = finishFp p ((unpack p x).sign ^^ (unpack p y).sign) ((unpack p x).expo - (unpack p y).expo + 64)
      ((unpack p x).mant * 16 ^ (p.digits + 1) / (unpack p y).mant) := if_neg (Nat.not_le.mpr h)

/-- A finished quotient is the exact one truncated, however many digits the dividend was given. -/
theorem finishFp_quotient {p : Prec} {a b j : Nat} (hlo : 16 ^ p.digits * b ≤ a * 16 ^ (p.digits + j))
    (hhi : a * 16 ^ (p.digits + j) < 16 ^ (p.digits + 1) * b) (s : Bool) {ea eb : Nat} (hea : ea < 128) (heb : eb < 128)
    (hj : j ≤ 1) {e : Int} (he : e = (ea : Int) - eb + 65 - j) {r : FpResult}
    (hr : r = finishFp p s e (a * 16 ^ (p.digits + j) / b)) (hovf : r.ovf = false) (hunf : r.unf = false) :
    let v := unpack p r.value
    v.mant * 16 ^ v.expo * (b * 16 ^ eb) ≤ a * 16 ^ ea * 16 ^ (64 + p.digits) ∧
      a * 16 ^ ea * 16 ^ (64 + p.digits) < (v.mant + 1) * 16 ^ v.expo * (b * 16 ^ eb) := by
  subst hr
  have hlo' : 16 ^ (p.digits - 1) * b ≤ a * 16 ^ (p.digits + j) :=
    (Nat.mul_le_mul_right b (Nat.pow_le_pow_right (by decide) (Nat.sub_le _ _))).trans hlo
  obtain ⟨h0, hbelow, habove⟩ := finishFp_div_truncates hlo' hhi s (by omega) (by omega) hovf hunf
  generalize unpack p _ = v at *
  have hsum : e.toNat + eb + j = ea + 65 := by omega
  generalize e.toNat = e' at *
  have hexact : 16 * (a * 16 ^ ea * 16 ^ (64 + p.digits)) = a * 16 ^ (p.digits + j) * 16 ^ e' * 16 ^ eb := by
    calc _ = a * 16 ^ p.digits * 16 ^ (ea + 65) := by ring
      _ = _ := by rw [← hsum]; ring
  have hplace (m : Nat) : 16 * (m * 16 ^ v.expo * (b * 16 ^ eb)) = m * 16 ^ (v.expo + 1) * b * 16 ^ eb := by ring
  have hscale := Nat.mul_le_mul_right (16 ^ eb) hbelow
  have hscale' := Nat.mul_lt_mul_of_pos_right habove (show 0 < 16 ^ eb from Nat.pow_pos (by decide))
  rw [← hexact, ← hplace] at hscale hscale'
  exact ⟨Nat.le_of_mul_le_mul_left hscale (by decide), Nat.lt_of_mul_lt_mul_left hscale'⟩

/-- The quotient of numbers that are true zero or normalised is the exact one truncated (43_floating_point R336). -/
theorem fpDiv_truncates {p : Prec} {x y : QWord} (hx : isNorm p x = true) (hy : isNorm p y = true)
    (hnz : (unpack p y).mant ≠ 0) (hovf : (fpDiv p x y).ovf = false) (hunf : (fpDiv p x y).unf = false) :
    let a := unpack p x
    let b := unpack p y
    let v := unpack p (fpDiv p x y).value
    v.mant * 16 ^ v.expo * (b.mant * 16 ^ b.expo) ≤ a.mant * 16 ^ a.expo * 16 ^ (64 + p.digits) ∧
      a.mant * 16 ^ a.expo * 16 ^ (64 + p.digits) < (v.mant + 1) * 16 ^ v.expo * (b.mant * 16 ^ b.expo) := by
  have hb := (mant_of_isNorm hy).resolve_left hnz
  have hlt := unpack_mant_lt p x
  have hltb := unpack_mant_lt p y
  have hea := unpack_expo_lt p x
  have heb := unpack_expo_lt p y
  have hdigits := pow_digits p
  have hpow := Nat.pow_pos (n := p.digits) (show 0 < 16 by decide)
  by_cases hle : (unpack p y).mant ≤ (unpack p x).mant
  · refine finishFp_quotient (j := 0) ?_ ?_ _ hea heb (by decide) (by omega) (fpDiv_of_le hle) hovf hunf
    · rw [Nat.mul_comm]
      exact Nat.mul_le_mul_right _ hle
    · rw [Nat.add_zero, Nat.pow_succ, Nat.mul_comm, Nat.mul_assoc]
      exact Nat.mul_lt_mul_of_pos_left (by omega) hpow
  · rcases mant_of_isNorm hx with hz | ha
    · have hzero : fpDiv p x y = ⟨0, false, false⟩ := by
        rw [fpDiv_of_lt (by omega), hz, Nat.zero_mul, Nat.zero_div, finishFp_zero]
      simp only [hzero, unpack_zero, hz]
      exact ⟨by simp, by simpa using Nat.pos_of_ne_zero hnz⟩
    · refine finishFp_quotient (j := 1) ?_ ?_ _ hea heb (by decide) (by omega) (fpDiv_of_lt (by omega)) hovf hunf
      · rw [Nat.pow_succ, Nat.mul_comm, ← Nat.mul_assoc, Nat.mul_right_comm]
        exact Nat.mul_le_mul_right _ (by omega)
      · rw [Nat.mul_comm]
        exact Nat.mul_lt_mul_of_pos_left (by omega) (Nat.pow_pos (by decide))

/-- Settles O26: the fields packed and read again, the floated integer by its digits, the finished result by its shifts, and
what the guard digit cut off. -/
theorem floatValues : Obligations.FloatValues := by
  unfold Obligations.FloatValues
  refine ⟨fun s e m m6 low => ⟨unpack_double_append s e m, unpack_single_append s e m6 low⟩,
    fun p v => floatInt_value, finishFp_zero, fun p s e m k hlo hhi he he' => ?_, normalised_keeps,
    fun p x y hx hy => ⟨fpMul_truncates hx hy, fpDiv_truncates hx hy⟩⟩
  have hs : Shifts p m k := ⟨hlo, hhi⟩
  refine ⟨unpack_finishFp hs s he he', ?_, ?_, ?_⟩ <;> rw [finishFp_eq hs s he he']
  rintro rfl
  exact pack_single_low s _ _

end Sys2Proof.Laws
end

section
/-!
Proofs of O25, O27, O33 and O34 (43_floating_point): the loads, the stores, the status register and the skips, and the
lemmas that say once what the shared pieces of a floating-point instruction do.
-/

namespace Sys2Proof.Laws

open Sys2Proof.Machine

/-! ## Pieces of a floating-point instruction -/

@[simp] theorem run_raise (e : FpErr) (s : State) : raise e s = .ok () (s.floatRaised e) := rfl

@[simp] theorem run_setResult (fac : AcNo) (x : QWord) (s : State) : setResult fac x s = .ok () (s.floatSet fac x) := rfl

@[simp] theorem run_setFpResult (fac : AcNo) (r : FpResult) (s : State) :
    setFpResult fac r s = .ok () (s.floatDone fac r) := rfl

theorem supervisor_floatRaised {s : State} (h : Supervisor s) (e : FpErr) : Supervisor (s.floatRaised e) := h

/-- A word stored after others keeps every word outside them all. -/
theorem sameOutside_withWord_after {s t : State} {l : List Addr} (h : SameOutside s t l) {a : Addr} (v : Word)
    (ha : a ∈ l) : SameOutside s (t.withWord a v) l := SameOutside.trans h (sameOutside_withWord t v ha)

/-- Two words stored from an address up leave the rest of memory. -/
theorem sameOutside_two (s : State) (e : Addr) (v0 v1 : Word) :
    SameOutside s ((s.withWord e v0).withWord (e + 1) v1) [e, e + 1] :=
  sameOutside_withWord_after (sameOutside_withWord s v0 (by simp)) v1 (by simp)

/-- Two words stored from an address up. -/
theorem run_storeTwo {s : State} (h : Supervisor s) (e : Addr) (v0 v1 : Word) (k : M Unit) :
    (do memWrite e v0; memWrite (e + 1) v1; k : M Unit) s = k ((s.withWord e v0).withWord (e + 1) v1) := by
  rw [run_bind_ok (run_memWrite h e v0), run_bind_ok (run_memWrite (supervisor_withWord h e v0) _ v1)]

/-! ## Loads (43_floating_point R350, R351, R354, R355) -/

theorem exec_flas (ac fac : AcNo) (s : State) :
    exec (.flas ac fac) s = .next ((s.floatSet fac (floatInt .single (s.ac.get ac).toInt)).next 1) := by
  change execFlas ac fac s = _
  unfold execFlas
  apply runInstr_ok
  rw [run_bind_ok (run_getAc ac s), run_bind_ok (run_setResult fac _ s), run_advance]

section
variable {s : State} (h : Supervisor s) {fac : AcNo} {xa : ExtAddr} {e : Addr} (he : s.extAt xa = some e)
include h he

theorem exec_flds : exec (.flds fac xa) s = .next ((s.withFpac fac (s.floatAt .single e)).next 2) := by
  change execFlds fac xa s = _
  unfold execFlds
  apply runInstr_ok
  rw [run_bind_ok (run_extEa h he), run_bind_ok (run_memFp h .single e), run_bind_ok (run_setFpac fac _ s), run_advance]

theorem exec_fldd : exec (.fldd fac xa) s = .next ((s.withFpac fac (s.floatAt .double e)).next 2) := by
  change execFldd fac xa s = _
  unfold execFldd
  apply runInstr_ok
  rw [run_bind_ok (run_extEa h he), run_bind_ok (run_memFp h .double e), run_bind_ok (run_setFpac fac _ s), run_advance]

theorem exec_flmd : exec (.flmd fac xa) s =
    .next ((s.floatSet fac (floatInt .double (s.wordAt e ++ s.wordAt (e + 1) : DWord).toInt)).next 2) := by
  change execFlmd fac xa s = _
  unfold execFlmd
  apply runInstr_ok
  rw [run_bind_ok (run_extEa h he), run_bind_ok (run_memRead h e), run_bind_ok (run_memRead h (e + 1)),
    run_bind_ok (run_setResult fac _ s), run_advance]

end

/-- Settles O25: each load by its own lemma. -/
theorem floatLoads : Obligations.FloatLoads := by
  unfold Obligations.FloatLoads
  intro s fac ac xa e h
  exact ⟨exec_flas ac fac s, fun he => ⟨exec_flds h he, exec_fldd h he, exec_flmd h he⟩⟩

/-! ## Stores (43_floating_point R352, R353, R406) -/

section
variable {s : State} (h : Supervisor s) {fac : AcNo} {xa : ExtAddr} {e : Addr} (he : s.extAt xa = some e)
include h he

theorem exec_fsts : exec (.fsts fac xa) s =
    .next (((s.withWord e (quarter (s.fpac.get fac) 0)).withWord (e + 1) (quarter (s.fpac.get fac) 1)).next 2) := by
  change execFsts fac xa s = _
  unfold execFsts
  apply runInstr_ok
  rw [run_bind_ok (run_extEa h he), run_bind_ok (run_getFpac fac s), run_storeTwo h, run_advance]

theorem exec_fstd : exec (.fstd fac xa) s =
    .next (((((s.withWord e (quarter (s.fpac.get fac) 0)).withWord (e + 1) (quarter (s.fpac.get fac) 1)).withWord (e + 2)
      (quarter (s.fpac.get fac) 2)).withWord (e + 3) (quarter (s.fpac.get fac) 3)).next 2) := by
  have h2 := supervisor_withWord (supervisor_withWord h e (quarter (s.fpac.get fac) 0)) (e + 1)
    (quarter (s.fpac.get fac) 1)
  change execFstd fac xa s = _
  unfold execFstd
  apply runInstr_ok
  rw [run_bind_ok (run_extEa h he), run_bind_ok (run_getFpac fac s), run_storeTwo h, run_bind_ok (run_memWrite h2 _ _),
    run_bind_ok (run_memWrite (supervisor_withWord h2 _ _) _ _), run_advance]

theorem exec_fsst : exec (.fsst xa) s =
    .next (((s.withWord e (Fpsr.word1 s.fpsr)).withWord (e + 1) (Fpsr.word2 s.fpsr)).next 2) := by
  change execFsst xa s = _
  unfold execFsst
  apply runInstr_ok
  rw [run_bind_ok (run_extEa h he), run_bind_ok (run_get s), run_storeTwo h, run_advance]

end

/-- Settles O27: each store by its own lemma, its frame word by word. -/
theorem floatStores : Obligations.FloatStores := by
  unfold Obligations.FloatStores
  intro s fac xa e h he x two four status
  have htwo : SameOutside s two [e, e + 1, e + 2, e + 3] := SameOutside.mono (sameOutside_two s e _ _) (by simp)
  exact ⟨exec_fsts h he, sameOutside_two s e _ _, exec_fstd h he,
    sameOutside_withWord_after (sameOutside_withWord_after htwo _ (by simp)) _ (by simp), exec_fsst h he,
    sameOutside_two s e _ _⟩

/-! ## The status register -/

theorem exec_fmov (facs facd : AcNo) (s : State) :
    FloatEnds (s.floatSet facd (s.fpac.get facs)) 1 (exec (.fmov facs facd) s) := by
  apply floatEnds_of
  rw [run_bind_ok (run_getFpac facs s), run_bind_ok (run_setResult facd _ s)]

theorem exec_fcmp {facs facd : AcNo} {s : State} (ha : isNorm .double (s.fpac.get facs) = true)
    (hb : isNorm .double (s.fpac.get facd) = true) :
    exec (.fcmp facs facd) s =
      .next (State.next { s with fpsr := compareZN (s.fpac.get facs) (s.fpac.get facd) s.fpsr } 1) := by
  apply runInstr_ok
  rw [run_bind_ok (run_getFpac facs s), run_bind_ok (run_getFpac facd s), if_pos (by rw [ha, hb]; rfl),
    run_bind_ok (run_modifyFpsr _ s)]
  rfl

theorem exec_flst {s : State} (h : Supervisor s) {xa : ExtAddr} {e : Addr} (he : s.extAt xa = some e) :
    let f := Fpsr.ofWords (s.wordAt e) (s.wordAt (e + 1))
    FloatEnds { s with fpsr := if Fpsr.any f then { f with fppc := s.pc } else f } 2 (exec (.flst xa) s) := by
  intro f
  apply floatEnds_of
  rw [run_bind_ok (run_extEa h he), run_bind_ok (run_memRead h e), run_bind_ok (run_memRead h (e + 1)),
    run_bind_ok (run_get s), run_bind_ok (run_setFpsr _ s)]

theorem exec_fte (s : State) : FloatEnds { s with fpsr := { s.fpsr with te := true } } 1 (exec .fte s) := by
  apply floatEnds_of
  rw [run_bind_ok (run_modifyFpsr _ s)]

/-- Bits 0 to 7 and 9 of the first word are the flags of the register (43_floating_point R406). -/
theorem word1_flags (g : Fpsr) :
    (List.range 10).map (Fpsr.word1 g).getMsbD =
      [Fpsr.any g, g.ovf, g.unf, g.dvz, g.mof, g.te, g.z, g.n, false, g.res] := by
  simp only [List.range, List.range.loop, List.map_cons, List.map_nil, Fpsr.word1, BitVec.getMsbD_append]
  simp

theorem word1_low (g : Fpsr) : (Fpsr.word1 g).extractLsb' 4 2 = 0 ∧ (Fpsr.word1 g).extractLsb' 0 4 = 8 := by
  refine ⟨?_, BitVec.extractLsb'_append_eq_right⟩
  rw [Fpsr.word1, BitVec.extractLsb'_append_eq_of_le (by decide)]
  exact BitVec.extractLsb'_append_eq_right

theorem word2_fields (g : Fpsr) : (Fpsr.word2 g).getMsbD 0 = false ∧ (Fpsr.word2 g).extractLsb' 0 15 = g.fppc := by
  refine ⟨?_, BitVec.extractLsb'_append_eq_right⟩
  rw [Fpsr.word2, joinWord, BitVec.getMsbD_append]
  rfl

theorem ofWords_fppc (w1 w2 : Word) : (Fpsr.ofWords w1 w2).fppc = w2.extractLsb' 0 15 :=
  BitVec.setWidth_eq_extractLsb' (x := w2) (by decide)

/-- Settles O33: each instruction by its own run, the stored words by their bits, the loaded ones by definition. -/
theorem floatStatus : Obligations.FloatStatus := by
  unfold Obligations.FloatStatus
  intro s facs facd xa e a b f
  refine ⟨exec_fmov facs facd s, fun ha hb => ?_, fun h he => exec_flst h he, exec_fte s, rfl, rfl, fun g => ?_,
    fun w1 w2 => ⟨rfl, ofWords_fppc w1 w2⟩⟩
  · rw [exec_fcmp ha hb, compareZN, decide_eq_decide.mpr (eq_comm (a := scaledValue a))]
  · intro w
    have hflags := word1_flags g
    simp only [List.range, List.range.loop, List.map_cons, List.map_nil, List.cons.injEq, and_true] at hflags
    obtain ⟨h0, h1, h2, h3, h4, h5, h6, h7, h8, h9⟩ := hflags
    rw [h0, h1, h2, h3, h4, h5, h6, h7, h8, h9]
    exact ⟨rfl, rfl, (word1_low g).1, (word1_low g).2, (word2_fields g).1, (word2_fields g).2, rfl⟩

/-! ## The skips (43_floating_point R390 to R405) -/

theorem runInstr_fpSkip (c : Fpsr → Bool) (s : State) : runInstr (fpSkip c) s = .next (s.nextSkip 1 (c s.fpsr)) := rfl

/-- Settles O34: every skip is the one skip of its own condition. -/
theorem floatSkips : Obligations.FloatSkips := by
  unfold Obligations.FloatSkips
  intro s f skips
  exact ⟨runInstr_fpSkip (fun _ => false) s, runInstr_fpSkip (fun _ => true) s, runInstr_fpSkip (fun g => g.z) s,
    runInstr_fpSkip (fun g => !g.z) s, runInstr_fpSkip (fun g => g.n) s, runInstr_fpSkip (fun g => !g.n) s,
    runInstr_fpSkip (fun g => g.z || g.n) s, runInstr_fpSkip (fun g => !g.z && !g.n) s,
    runInstr_fpSkip (fun g => !g.mof) s, runInstr_fpSkip (fun g => !g.dvz) s, runInstr_fpSkip (fun g => !g.unf) s,
    runInstr_fpSkip (fun g => !g.unf && !g.dvz) s, runInstr_fpSkip (fun g => !g.ovf) s,
    runInstr_fpSkip (fun g => !g.ovf && !g.dvz) s, runInstr_fpSkip (fun g => !g.unf && !g.ovf) s,
    runInstr_fpSkip (fun g => !g.ovf && !g.unf && !g.dvz && !g.mof) s⟩

end Sys2Proof.Laws
end

section
/-!
Proofs of O28 and O32, the fixing of numbers and the single-accumulator instructions (43_floating_point R356, R357,
R380 to R387). The integer part of a number is one quotient; FSCAL and FINT are read by the mantissa they leave.
-/

namespace Sys2Proof.Laws

open Sys2Proof.Machine

/-! ## The integer part of a number (43_floating_point R356) -/

theorem intPart_eq (x : QWord) :
    intPart x = (unpack .double x).mant * 16 ^ (unpack .double x).expo / 16 ^ (64 + 14) := by
  unfold intPart
  generalize unpack .double x = u
  by_cases hbig : 64 + 14 ≤ u.expo
  · simp only [if_pos hbig]
    rw [← Nat.add_sub_of_le hbig, Nat.pow_add, Nat.mul_left_comm, Nat.mul_div_cancel_left _ (by decide)]
    simp
  · simp only [if_neg hbig]
    rw [show 64 + 14 = (64 + 14 - u.expo) + u.expo by omega, Nat.pow_add,
      Nat.mul_div_mul_right _ _ (Nat.pow_pos (by decide))]
    simp

/-- The low bits of a magnitude and a sign, as a number (43_floating_point R356, R357). -/
theorem toInt_fixInt {n : Nat} (hn : 0 < n) (neg : Bool) (j : Nat) :
    (fixInt n neg j).toInt = (if neg then -1 else 1) * ((j % 2 ^ (n - 1) : Nat) : Int) := by
  have hlt : j % 2 ^ (n - 1) < 2 ^ (n - 1) := Nat.mod_lt _ (by positivity)
  have hpow : 2 ^ n = 2 * 2 ^ (n - 1) := by rw [← Nat.pow_succ', Nat.succ_eq_add_one, Nat.sub_add_cancel hn]
  unfold fixInt
  generalize j % 2 ^ (n - 1) = m at *
  have hm : (BitVec.ofNat n m).toInt = m := by
    have hnat : (BitVec.ofNat n m).toNat = m := by rw [BitVec.toNat_ofNat, Nat.mod_eq_of_lt (by omega)]
    rw [BitVec.toInt_eq_toNat_of_lt (by omega), hnat]
  cases neg with
  | false => exact hm.trans (Int.one_mul _).symm
  | true =>
    change (-BitVec.ofNat n m).toInt = -1 * (m : Int)
    rw [BitVec.toInt_neg, hm, Int.neg_one_mul, hpow]
    exact Int.bmod_eq_of_le (by omega) (by omega)

theorem exec_ffas {ac fac : AcNo} {s : State} (hx : isNorm .double (s.fpac.get fac) = true) :
    FloatEnds ((s.floatRaised ⟨false, false, false, decide (32767 < intPart (s.fpac.get fac))⟩).withAc ac
      (fixInt 16 (s.fpac.get fac).msb (intPart (s.fpac.get fac)))) 1 (exec (.ffas ac fac) s) := by
  apply floatEnds_of
  rw [run_bind_ok (run_getFpac fac s), if_pos hx, run_bind_ok (run_raise _ s), run_bind_ok (run_setAc ac _ _)]

theorem exec_ffmd {s : State} (h : Supervisor s) {fac : AcNo} {xa : ExtAddr} {e : Addr} (he : s.extAt xa = some e)
    (hx : isNorm .double (s.fpac.get fac) = true) :
    let i := fixInt 32 (s.fpac.get fac).msb (intPart (s.fpac.get fac))
    let r := s.floatRaised ⟨false, false, false, decide (2147483647 < intPart (s.fpac.get fac))⟩
    let t := (r.withWord e (i.extractLsb' 16 16)).withWord (e + 1) (i.extractLsb' 0 16)
    FloatEnds { t with fpsr := { t.fpsr with z := false, n := false } } 2 (exec (.ffmd fac xa) s) := by
  intro i r t
  have hr : Supervisor r := supervisor_floatRaised h _
  have hstored : memWritePair e i r = .ok () t := by
    unfold memWritePair
    rw [run_bind_ok (run_memWrite hr e _), run_memWrite (supervisor_withWord hr e _)]
  apply floatEnds_of
  rw [run_bind_ok (run_extEa h he), run_bind_ok (run_getFpac fac s), if_pos hx, run_bind_ok (run_raise _ s),
    run_bind_ok hstored, run_bind_ok (run_modifyFpsr _ t)]

/-- Settles O28: the integer part as one quotient, its bits as a number, and both instructions by their own run. -/
theorem floatFixes : Obligations.FloatFixes := by
  unfold Obligations.FloatFixes
  refine ⟨intPart_eq, fun neg j => ⟨toInt_fixInt (by decide) neg j, toInt_fixInt (by decide) neg j⟩,
    fun s fac ac xa e hx => ⟨exec_ffas hx, fun h he => ⟨exec_ffmd h he hx, sameOutside_two _ e _ _⟩⟩⟩

/-! ## Single-accumulator instructions (43_floating_point R380 to R387) -/

theorem exec_fnom (fac : AcNo) (s : State) :
    exec (.fnom fac) s = .next ((s.floatDone fac (normalised (s.fpac.get fac))).next 1) := by
  change execFnom fac s = _
  unfold execFnom
  apply runInstr_ok
  rw [run_bind_ok (run_getFpac fac s), run_bind_ok (run_setFpResult fac _ s), run_advance]
  rfl

theorem exec_frh (fac : AcNo) (s : State) :
    exec (.frh fac) s = .next ((s.withAc 0 ((s.fpac.get fac).extractLsb' 48 16)).next 1) := by
  change execFrh fac s = _
  unfold execFrh
  apply runInstr_ok
  rw [run_bind_ok (run_getFpac fac s), run_bind_ok (run_setAc 0 _ s), run_advance]
  rfl

theorem fpUpdate_ends (fac : AcNo) (g : State → QWord → QWord) (s : State) :
    FloatEnds (s.floatSet fac (g s (s.fpac.get fac))) 1 (runInstr (fpUpdate fac g) s) := by
  apply floatEnds_of
  unfold fpUpdate
  rw [run_bind_ok (run_get s), run_bind_ok (run_setResult fac _ s)]

theorem exec_fab (fac : AcNo) (s : State) :
    FloatEnds (s.floatSet fac (s.fpac.get fac &&& 0x7FFFFFFFFFFFFFFF)) 1 (exec (.fab fac) s) :=
  fpUpdate_ends fac (fun _ x => x &&& 0x7FFFFFFFFFFFFFFF) s

theorem exec_fneg (fac : AcNo) (s : State) :
    FloatEnds (s.floatSet fac (if s.fpac.get fac = 0 then s.fpac.get fac else negSign (s.fpac.get fac))) 1
      (exec (.fneg fac) s) :=
  fpUpdate_ends fac (fun _ x => if x = 0 then x else negSign x) s

theorem exec_fexp (fac : AcNo) (s : State) :
    FloatEnds (s.floatSet fac (if s.fpac.get fac = 0 then s.fpac.get fac
      else withExpo (s.fpac.get fac) ((s.ac.get 0).extractLsb' 8 7))) 1 (exec (.fexp fac) s) :=
  fpUpdate_ends fac (fun s x => if x = 0 then x else withExpo x ((s.ac.get 0).extractLsb' 8 7)) s

theorem exec_fscal (fac : AcNo) (s : State) :
    let r := scale (s.fpac.get fac) ((s.ac.get 0).extractLsb' 8 7).toNat
    FloatEnds ((s.floatRaised ⟨false, false, false, r.2⟩).floatSet fac r.1) 1 (exec (.fscal fac) s) := by
  intro r
  apply floatEnds_of
  rw [run_bind_ok (run_getFpac fac s), run_bind_ok (run_getAc 0 s), run_bind_ok (run_raise _ s),
    run_bind_ok (run_setResult fac _ _)]

section
variable {fac : AcNo} {s : State} (hx : isNorm .double (s.fpac.get fac) = true)
include hx

theorem exec_fint : FloatEnds (s.floatSet fac (integerize (s.fpac.get fac))) 1 (exec (.fint fac) s) := by
  apply floatEnds_of
  rw [run_bind_ok (run_getFpac fac s), if_pos hx, run_bind_ok (run_setResult fac _ s)]

theorem exec_fhlv :
    FloatEnds (s.floatDone fac (finishFp .double (unpack .double (s.fpac.get fac)).sign
      (Int.ofNat (unpack .double (s.fpac.get fac)).expo) (8 * (unpack .double (s.fpac.get fac)).mant))) 1
      (exec (.fhlv fac) s) := by
  apply floatEnds_of
  rw [run_bind_ok (run_getFpac fac s), if_pos hx, run_bind_ok (run_setFpResult fac _ s)]

end

/-! ## FSCAL by value (43_floating_point R384) -/

theorem scale_same {x : QWord} {t : Nat} (h : x = 0 ∨ t = (unpack .double x).expo) : scale x t = (x, false) :=
  if_pos (by simpa using h)

/-- The mantissa of a number scaled to the exponent `t`. -/
def scaledMant (u : Unp) (t : Nat) : Nat :=
  if u.expo < t then u.mant / 16 ^ (t - u.expo) else u.mant * 16 ^ (u.expo - t) % 16 ^ 14

theorem scale_moves {x : QWord} {t : Nat} (hx : x ≠ 0) (ht : t ≠ (unpack .double x).expo) :
    scale x t =
      (if scaledMant (unpack .double x) t = 0 then 0
        else pack .double (unpack .double x).sign t (scaledMant (unpack .double x) t),
        decide (t < (unpack .double x).expo)) :=
  if_neg (by simpa using not_or.mpr ⟨hx, ht⟩)

theorem scaledMant_lt (x : QWord) (t : Nat) : scaledMant (unpack .double x) t < 16 ^ 14 := by
  unfold scaledMant
  by_cases hup : (unpack .double x).expo < t
  · rw [if_pos hup]
    exact (Nat.div_le_self _ _).trans_lt (unpack_mant_lt .double x)
  · rw [if_neg hup]
    exact Nat.mod_lt _ (by decide)

/-! ## FINT by value (43_floating_point R386) -/

/-- The mantissa of a number above one, its fraction zeroed. -/
def wholeMant (u : Unp) : Nat := if u.expo - 64 < 14 then u.mant - u.mant % 16 ^ (14 - (u.expo - 64)) else u.mant

theorem integerize_below {x : QWord} (h : (unpack .double x).mant = 0 ∨ (unpack .double x).expo ≤ 64) :
    integerize x = 0 :=
  if_pos (by simpa using h)

theorem integerize_above {x : QWord} (hm : (unpack .double x).mant ≠ 0) (he : 64 < (unpack .double x).expo) :
    integerize x =
      (finishFp .double (unpack .double x).sign (unpack .double x).expo (16 * wholeMant (unpack .double x))).value :=
  if_neg (by simpa using ⟨hm, he⟩)

/-- A normalised number has an integer part exactly where its exponent is above 64. -/
theorem intPart_ne_zero_iff {x : QWord} (hx : isNorm .double x = true) :
    intPart x ≠ 0 ↔ (unpack .double x).mant ≠ 0 ∧ 64 < (unpack .double x).expo := by
  have hm := mant_of_isNorm hx
  have hlt := unpack_mant_lt .double x
  rw [intPart_eq, Nat.div_ne_zero_iff]
  generalize unpack .double x = u at *
  refine ⟨fun ⟨_, hle⟩ => ⟨?_, ?_⟩, fun ⟨hm0, he⟩ => ⟨by decide, ?_⟩⟩
  · intro h0
    rw [h0, Nat.zero_mul] at hle
    exact absurd hle (by decide)
  · by_contra he
    have hbelow : u.mant * 16 ^ u.expo < 16 ^ 14 * 16 ^ 64 :=
      Nat.mul_lt_mul_of_lt_of_le hlt (Nat.pow_le_pow_right (by decide) (by omega)) (by decide)
    rw [← Nat.pow_add] at hbelow
    omega
  · calc 16 ^ (64 + 14) = 16 ^ 13 * 16 ^ 65 := by rw [← Nat.pow_add]
      _ ≤ u.mant * 16 ^ u.expo := Nat.mul_le_mul (hm.resolve_left hm0) (Nat.pow_le_pow_right (by decide) he)

theorem wholeMant_value {x : QWord} (he : 64 < (unpack .double x).expo) :
    wholeMant (unpack .double x) * 16 ^ (unpack .double x).expo = intPart x * 16 ^ (64 + 14) := by
  unfold wholeMant intPart
  generalize unpack .double x = u at *
  by_cases hbig : 64 + 14 ≤ u.expo
  · rw [if_neg (by omega)]
    simp only [if_pos hbig]
    rw [Nat.mul_assoc, ← Nat.pow_add, Nat.sub_add_cancel hbig]
  · rw [if_pos (by omega), ← Nat.div_mul_self_eq_mod_sub_self, Nat.mul_assoc, ← Nat.pow_add,
      show 14 - (u.expo - 64) = 64 + 14 - u.expo by omega, Nat.sub_add_cancel (by omega)]
    simp only [if_neg hbig]

theorem wholeMant_bounds {x : QWord} (hm : 16 ^ 13 ≤ (unpack .double x).mant) (he : 64 < (unpack .double x).expo) :
    16 ^ 13 ≤ wholeMant (unpack .double x) ∧ wholeMant (unpack .double x) < 16 ^ 14 := by
  have hlt : (unpack .double x).mant < 16 ^ 14 := unpack_mant_lt .double x
  unfold wholeMant
  generalize unpack .double x = u at *
  by_cases hy : u.expo - 64 < 14
  · rw [if_pos hy]
    refine ⟨?_, by omega⟩
    have hpow : 16 ^ (u.expo - 65) * 16 ^ (14 - (u.expo - 64)) = 16 ^ 13 := by
      rw [← Nat.pow_add]
      congr 1
      omega
    rw [← Nat.div_mul_self_eq_mod_sub_self, ← hpow]
    exact Nat.mul_le_mul_right _ ((Nat.le_div_iff_mul_le (Nat.pow_pos (by decide))).mpr (hpow.trans_le hm))
  · rw [if_neg hy]
    exact ⟨hm, hlt⟩

theorem integerize_value {x : QWord} (hx : isNorm .double x = true) (hi : intPart x ≠ 0) :
    unpack .double (integerize x) =
      ⟨(unpack .double x).sign, (unpack .double x).expo, wholeMant (unpack .double x)⟩ ∧
    16 ^ 13 ≤ wholeMant (unpack .double x) := by
  obtain ⟨hm, he⟩ := (intPart_ne_zero_iff hx).mp hi
  have hexpo := unpack_expo_lt .double x
  obtain ⟨hlo, hhi⟩ := wholeMant_bounds ((mant_of_isNorm hx).resolve_left hm) he
  have hs : Shifts .double (16 * wholeMant (unpack .double x)) 0 := by
    refine ⟨?_, ?_⟩ <;> simp only [Prec.digits] <;> omega
  refine ⟨?_, hlo⟩
  rw [integerize_above hm he, unpack_finishFp hs _ (by omega) (by omega)]
  congr 1
  · omega
  · omega

/-- Settles O32: each instruction by its own run, FSCAL by the mantissa it moves, FINT by the mantissa without its
fraction. -/
theorem floatUnary : Obligations.FloatUnary := by
  unfold Obligations.FloatUnary
  intro s fac x u t
  refine ⟨exec_fnom fac s, exec_frh fac s, exec_fab fac s, exec_fneg fac s, exec_fscal fac s, exec_fexp fac s,
    fun hx => ⟨exec_fint hx, exec_fhlv hx⟩, scale_same, fun hx ht => ?_, fun hx => ⟨fun hi => ?_, fun hi => ?_⟩⟩
  · rw [scale_moves hx ht]
    refine ⟨rfl, fun hm => if_pos hm, fun hm => ?_⟩
    exact (congrArg (unpack .double) (if_neg hm)).trans (unpack_pack .double _ (t.isLt) (scaledMant_lt x _))
  · have := mt (intPart_ne_zero_iff hx).mpr (not_not.mpr hi)
    exact integerize_below (by omega)
  · obtain ⟨hfields, hlo⟩ := integerize_value hx hi
    rw [hfields]
    refine ⟨isNorm_of_mant (by rw [hfields]; exact hlo), rfl, ?_⟩
    exact (wholeMant_value ((intPart_ne_zero_iff hx).mp hi).2).trans (congrArg (· * 16 ^ (64 + 14)) (intPart_eq x))

end Sys2Proof.Laws
end

section
/-!
Proofs of O29 and O30, floating-point arithmetic (43_floating_point R336, R342, R360 to R375). The sum is one signed sum
of aligned mantissas; an instruction is run once for each shape, with its operation as a parameter, and the working storage
above the stack pointer word by word.
-/

namespace Sys2Proof.Laws

open Sys2Proof.Machine

/-! ## The sum (43_floating_point R336) -/

/-- The sign of a number as a factor. -/
def signOf (s : Bool) : Int := if s then -1 else 1

theorem signOf_not (s : Bool) : signOf (!s) = -signOf s := by cases s <;> rfl

/-- A mantissa with a guard digit, shifted right to the exponent `e` (43_floating_point R336). -/
def aligned (e : Nat) (u : Unp) : Nat := 16 * u.mant / 16 ^ (e - u.expo)

theorem aligned_lt (p : Prec) (e : Nat) (x : QWord) : aligned e (unpack p x) < 16 ^ (p.digits + 1) := by
  have hm := unpack_mant_lt p x
  refine (Nat.div_le_self _ _).trans_lt ?_
  rw [Nat.pow_succ']
  omega

/-- The sign of a mantissa of zero does not matter. -/
theorem finishFp_sign {p : Prec} {s t : Bool} {e : Int} {m : Nat} (h : m ≠ 0 → s = t) :
    finishFp p s e m = finishFp p t e m := by
  by_cases hm : m = 0
  · rw [hm, finishFp_zero, finishFp_zero]
  · rw [h hm]

/-- A signed sum of aligned mantissas, its carry digit dropped, finished (43_floating_point R336). -/
def finishSum (p : Prec) (e : Nat) (sum : Int) : FpResult :=
  if 16 ^ (p.digits + 1) ≤ sum.natAbs then finishFp p (decide (sum < 0)) (e + 1) (sum.natAbs / 16)
  else finishFp p (decide (sum < 0)) e sum.natAbs

theorem finishSum_signOf (p : Prec) (e : Nat) (s : Bool) (n : Nat) :
    finishSum p e (signOf s * n) =
      if 16 ^ (p.digits + 1) ≤ n then finishFp p s (e + 1) (n / 16) else finishFp p s e n := by
  have habs : (signOf s * n).natAbs = n := by cases s <;> simp [signOf]
  have hsign (hn : n ≠ 0) : decide (signOf s * n < 0) = s := by
    cases s with
    | false => simp [signOf]
    | true => simpa [signOf] using Nat.pos_of_ne_zero hn
  unfold finishSum
  rw [habs]
  by_cases hcarry : 16 ^ (p.digits + 1) ≤ n
  · have hn : n ≠ 0 := (Nat.lt_of_lt_of_le (Nat.pow_pos (by decide)) hcarry).ne'
    rw [if_pos hcarry, if_pos hcarry, hsign hn]
  · rw [if_neg hcarry, if_neg hcarry, finishFp_sign hsign]

/-- The sum of two numbers is their signed, aligned mantissas' (43_floating_point R336). -/
theorem fpAdd_eq (p : Prec) (x y : QWord) :
    let a := unpack p x
    let b := unpack p y
    let e := max a.expo b.expo
    fpAdd p x y = finishSum p e (signOf a.sign * aligned e a + signOf b.sign * aligned e b) := by
  intro a b e
  have ha : aligned e a < _ := aligned_lt p e x
  have hb : aligned e b < _ := aligned_lt p e y
  change (if a.sign = b.sign then
      if 16 ^ (p.digits + 1) ≤ aligned e a + aligned e b then
        finishFp p a.sign (e + 1) ((aligned e a + aligned e b) / 16)
      else finishFp p a.sign e (aligned e a + aligned e b)
    else if aligned e b ≤ aligned e a then finishFp p a.sign e (aligned e a - aligned e b)
    else finishFp p b.sign e (aligned e b - aligned e a)) = _
  by_cases hs : a.sign = b.sign
  · rw [if_pos hs, ← hs, ← Int.mul_add, ← Int.natCast_add, finishSum_signOf]
  · have hnot : a.sign = !b.sign := Bool.eq_not.mpr hs
    rw [if_neg hs]
    by_cases hle : aligned e b ≤ aligned e a
    · have hsum : signOf a.sign * aligned e a + signOf b.sign * aligned e b =
          signOf a.sign * (aligned e a - aligned e b : Nat) := by
        rw [hnot, signOf_not, Int.ofNat_sub hle]
        ring
      rw [if_pos hle, hsum, finishSum_signOf, if_neg (by omega)]
    · have hsum : signOf a.sign * aligned e a + signOf b.sign * aligned e b =
          signOf b.sign * (aligned e b - aligned e a : Nat) := by
        rw [hnot, signOf_not, Int.ofNat_sub (Nat.le_of_not_le hle)]
        ring
      rw [if_neg hle, hsum, finishSum_signOf, if_neg (by omega)]

/-- The sign bit inverted (43_floating_point R364). -/
theorem negSign_eq (y : QWord) : negSign y = BitVec.ofBool (!y.msb) ++ y.extractLsb' 0 63 := by
  unfold negSign
  rw [show (0x8000000000000000 : QWord) = BitVec.twoPow 64 63 from rfl]
  apply BitVec.eq_of_getLsbD_eq
  intro i hi
  simp only [BitVec.getLsbD_append, BitVec.getLsbD_xor, BitVec.getLsbD_twoPow]
  by_cases hlow : i < 63
  · simp [hlow, show (63 : Nat) ≠ i by omega]
  · obtain rfl : i = 63 := by omega
    simp [BitVec.msb_eq_getLsbD_last]

/-! ## Arithmetic instructions -/

theorem run_fpArith {p : Prec} (op : QWord → QWord → FpResult) {fac : AcNo} {b : QWord} {s : State}
    (ha : isNorm p (s.fpac.get fac) = true) (hb : isNorm p b = true) :
    fpArith p op fac b s = .ok () (s.floatDone fac (op (s.fpac.get fac) b)) := by
  unfold fpArith
  rw [run_bind_ok (run_getFpac fac s), if_pos (by rw [ha, hb]; rfl), run_setFpResult]

section
variable {p : Prec} (op : QWord → QWord → FpResult) {facs facd : AcNo} {xa : ExtAddr} {e : Addr} {s : State}

theorem run_fpRegReg (ha : isNorm p (s.fpac.get facd) = true) (hb : isNorm p (s.fpac.get facs) = true) :
    fpRegReg p op facs facd s = .ok () (s.floatDone facd (op (s.fpac.get facd) (s.fpac.get facs))) := by
  unfold fpRegReg
  rw [run_bind_ok (run_getFpac facs s), run_fpArith op ha hb]

theorem run_fpMemReg (h : Supervisor s) (he : s.extAt xa = some e) (ha : isNorm p (s.fpac.get facd) = true)
    (hb : isNorm p (s.floatAt p e) = true) :
    fpMemReg p op facd xa s = .ok () (s.floatDone facd (op (s.fpac.get facd) (s.floatAt p e))) := by
  unfold fpMemReg
  rw [run_bind_ok (run_extEa h he), run_bind_ok (run_memFp h p e), run_fpArith op ha hb]

/-- An arithmetic instruction between accumulators, of operands that are true zero or normalised (43_floating_point R336). -/
theorem fpRegReg_ends (ha : isNorm p (s.fpac.get facd) = true) (hb : isNorm p (s.fpac.get facs) = true) :
    FloatEnds (s.floatDone facd (op (s.fpac.get facd) (s.fpac.get facs))) 1
      (runInstr (do fpRegReg p op facs facd; fpCheck 1) s) :=
  floatEnds_of (run_bind_ok (run_fpRegReg op ha hb))

/-- An arithmetic instruction with memory. -/
theorem fpMemReg_ends (h : Supervisor s) (he : s.extAt xa = some e) (ha : isNorm p (s.fpac.get facd) = true)
    (hb : isNorm p (s.floatAt p e) = true) :
    FloatEnds (s.floatDone facd (op (s.fpac.get facd) (s.floatAt p e))) 2
      (runInstr (do fpMemReg p op facd xa; fpCheck 2) s) :=
  floatEnds_of (run_bind_ok (run_fpMemReg op h he ha hb))

end

/-- Settles O29: the sum by its signed form, and each instruction as one of the two shapes with its own operation. -/
theorem floatArithmetic : Obligations.FloatArithmetic := by
  unfold Obligations.FloatArithmetic
  refine ⟨fun p x y => ⟨fpAdd_eq p x y, congrArg (fpAdd p x) (negSign_eq y), fpMul_eq p x y⟩,
    fun s facs facd xa e => ⟨fun ha hb => ⟨fpRegReg_ends _ ha hb, fpRegReg_ends _ ha hb, fpRegReg_ends _ ha hb⟩,
      fun ha hb => ⟨fpRegReg_ends _ ha hb, fpRegReg_ends _ ha hb⟩, fun h he =>
        ⟨fun ha hb => ⟨fpMemReg_ends _ h he ha hb, fpMemReg_ends _ h he ha hb, fpMemReg_ends _ h he ha hb⟩,
          fun ha hb => ⟨fpMemReg_ends _ h he ha hb, fpMemReg_ends _ h he ha hb⟩⟩⟩⟩

/-! ## Division (43_floating_point R336, R372 to R375) -/

/-- A division of numbers that are true zero or normalised: DVZ for a divisor of zero, else the quotient. -/
def divided (s : State) (fac : AcNo) (p : Prec) (x y : QWord) : State :=
  if mantZero p y then s.floatRaised dvzErr else s.floatDone fac (fpDiv p x y)

theorem run_fpDivide {p : Prec} {fac : AcNo} {b : QWord} {s : State} (ha : isNorm p (s.fpac.get fac) = true)
    (hb : isNorm p b = true) : fpDivide p fac b s = .ok () (divided s fac p (s.fpac.get fac) b) := by
  unfold fpDivide divided
  rw [run_bind_ok (run_getFpac fac s), if_pos (by rw [ha, hb]; rfl)]
  cases mantZero p b with
  | true => rfl
  | false => rfl

theorem supervisor_divided {s : State} (h : Supervisor s) (fac : AcNo) (p : Prec) (x y : QWord) :
    Supervisor (divided s fac p x y) := by
  unfold divided
  cases mantZero p y with
  | true => exact h
  | false => exact h

@[simp] theorem floatDone_mem (s : State) (fac : AcNo) (r : FpResult) : (s.floatDone fac r).mem = s.mem := rfl

@[simp] theorem divided_mem (s : State) (fac : AcNo) (p : Prec) (x y : QWord) : (divided s fac p x y).mem = s.mem := by
  unfold divided
  cases mantZero p y with
  | true => rfl
  | false => rfl

/-- Clearing the low half leaves what single precision reads. -/
theorem isNorm_single_clearLow (x : QWord) : isNorm .single (clearLow x) = isNorm .single x := by
  have htop : (clearLow x).extractLsb' 32 32 = x.extractLsb' 32 32 := BitVec.extractLsb'_append_eq_left
  unfold isNorm isTrueZero
  simp only [unpack_single_mant, htop]

/-! ## Working storage (43_floating_point R342) -/

/-- The `n` addresses wordsAbove an address. -/
def wordsAbove (a : Addr) (n : Nat) : List Addr := (List.range n).map fun k => a + BitVec.ofNat 15 (k + 1)

theorem wordsAbove_succ (a : Addr) (n : Nat) : wordsAbove a (n + 1) = (a + 1) :: wordsAbove (a + 1) n := by
  unfold wordsAbove
  rw [List.range_succ_eq_map, List.map_cons, List.map_map]
  congr 1
  refine List.map_congr_left fun k _ => ?_
  rw [Function.comp_apply, Nat.succ_eq_add_one, Nat.add_comm (k + 1) 1, BitVec.ofNat_add, ← BitVec.add_assoc]
  rfl

theorem sameButMemory_trans {s t u : State} (h : State.SameButMemory s t) (k : State.SameButMemory t u) :
    State.SameButMemory s u := by
  have hu : ({ u with mem := s.mem, freeIdx := s.freeIdx } : State) = { t with mem := s.mem, freeIdx := s.freeIdx } :=
    congrArg (fun v : State => { v with mem := s.mem, freeIdx := s.freeIdx }) k
  exact hu.trans h

/-- The state with any value in a word of the working storage, a control word of the stack excepted (log 32). -/
def scratched (s : State) (a : Addr) : State :=
  if isStackWord a then s else { s with freeIdx := s.freeIdx + 1 }.withWord a ((Config.free64 s.freeIdx).setWidth 16)

/-- The words of the working storage, control words of the stack excepted. -/
def roomOf (l : List Addr) : List Addr := l.filter fun w => !isStackWord w

theorem scratched_keeps {s : State} (h : Supervisor s) (a : Addr) :
    Supervisor (scratched s a) ∧ State.SameButMemory s (scratched s a) ∧
      SameOutside s (scratched s a) (roomOf [a]) := by
  unfold scratched
  cases hw : isStackWord a with
  | true => exact ⟨h, rfl, sameOutside_refl s _⟩
  | false =>
    exact ⟨h, rfl, sameOutside_withWord s _ (List.mem_filter.mpr ⟨List.mem_singleton_self a, by rw [hw]; rfl⟩)⟩

theorem scratchUp_succ {s : State} (h : Supervisor s) (n : Nat) (a : Addr) :
    scratchUp (n + 1) a s = scratchUp n (a + 1) (scratched s (a + 1)) := by
  rw [scratchUp]
  unfold scratched
  cases isStackWord (a + 1) with
  | true => rfl
  | false =>
    exact (run_bind_ok (run_drawFree 16 s)).trans
      (run_bind_ok (run_memWrite (s := { s with freeIdx := s.freeIdx + 1 }) h (a + 1) _))

/-- The working storage takes any values; the control words of the stack and all else stand. -/
theorem run_scratchUp : ∀ (n : Nat) {s : State} (_ : Supervisor s) (a : Addr),
    ∃ u, scratchUp n a s = .ok () u ∧ State.SameButMemory s u ∧ SameOutside s u (roomOf (wordsAbove a n))
  | 0, s, _, _ => ⟨s, rfl, rfl, sameOutside_refl s _⟩
  | n + 1, s, h, a => by
    obtain ⟨ht, hsame, hout⟩ := scratched_keeps h (a + 1)
    obtain ⟨u, hrun, hsame', hout'⟩ := run_scratchUp n ht (a + 1)
    refine ⟨u, (scratchUp_succ h n a).trans hrun, sameButMemory_trans hsame hsame', ?_⟩
    rw [wordsAbove_succ, roomOf, ← List.singleton_append, List.filter_append]
    exact SameOutside.trans (SameOutside.mono hout fun _ => List.mem_append_left _)
      (SameOutside.mono hout' fun _ => List.mem_append_right _)

/-- An instruction of `len` words did to `s` what leaves `t`, then used `room` words above the stack pointer and made its
check. -/
def EndsWithRoom (s t : State) (len room : Nat) (r : Host.Outcome State Fault Refusal) : Prop :=
  ∃ u : State, State.SameButMemory t u ∧ SameOutside s u (roomOf (s.stackRoom room)) ∧ FloatEnds u len r

theorem endsWithRoom_of {s t : State} (h : Supervisor t) (hmem : t.mem = s.mem) {len room : Nat} {m : M Unit}
    (hm : m s = (do scratch room; fpCheck len : M Unit) t) : EndsWithRoom s t len room (runInstr m s) := by
  obtain ⟨u, hrun, hsame, hout⟩ := run_scratchUp room h ((t.wordAt spLoc).setWidth 15)
  have hscratch : scratch room t = .ok () u := by
    unfold scratch
    rw [run_bind_ok (run_memRead h spLoc), hrun]
  have hroom : wordsAbove ((t.wordAt spLoc).setWidth 15) room = s.stackRoom room := by
    unfold State.wordAt wordsAbove State.stackRoom State.wordAt
    rw [hmem]
  refine ⟨u, hsame, ?_, floatEnds_of (hm.trans (run_bind_ok hscratch))⟩
  rw [← hroom]
  exact fun b hb => (hout b hb).trans (congrArg (Memory.read · b) hmem)

section
variable {facs facd : AcNo} {xa : ExtAddr} {e : Addr} {s : State} (h : Supervisor s)
include h

theorem exec_fmd (ha : isNorm .double (s.fpac.get facd) = true) (hb : isNorm .double (s.fpac.get facs) = true) :
    EndsWithRoom s (s.floatDone facd (fpMul .double (s.fpac.get facd) (s.fpac.get facs))) 1 4 (exec (.fmd facs facd) s) :=
  endsWithRoom_of (t := s.floatDone facd _) h (floatDone_mem s _ _) (run_bind_ok (run_fpRegReg (fpMul .double) ha hb))

theorem exec_fds (ha : isNorm .single (s.fpac.get facd) = true) (hb : isNorm .single (s.fpac.get facs) = true) :
    EndsWithRoom s (divided s facd .single (s.fpac.get facd) (s.fpac.get facs)) 1 6 (exec (.fds facs facd) s) :=
  endsWithRoom_of (supervisor_divided h _ _ _ _) (divided_mem _ _ _ _ _)
    ((run_bind_ok (run_getFpac facs s)).trans (run_bind_ok (run_fpDivide ha hb)))

theorem exec_fdd (ha : isNorm .double (s.fpac.get facd) = true) (hb : isNorm .double (s.fpac.get facs) = true) :
    EndsWithRoom s (divided s facd .double (s.fpac.get facd) (s.fpac.get facs)) 1 14 (exec (.fdd facs facd) s) :=
  endsWithRoom_of (supervisor_divided h _ _ _ _) (divided_mem _ _ _ _ _)
    ((run_bind_ok (run_getFpac facs s)).trans (run_bind_ok (run_fpDivide ha hb)))

variable (he : s.extAt xa = some e)
include he

theorem exec_fmmd (ha : isNorm .double (s.fpac.get facd) = true) (hb : isNorm .double (s.floatAt .double e) = true) :
    EndsWithRoom s (s.floatDone facd (fpMul .double (s.fpac.get facd) (s.floatAt .double e))) 2 4
      (exec (.fmmd facd xa) s) :=
  endsWithRoom_of (t := s.floatDone facd _) h (floatDone_mem s _ _)
    (run_bind_ok (run_fpMemReg (fpMul .double) h he ha hb))

theorem exec_fdmd (ha : isNorm .double (s.fpac.get facd) = true) (hb : isNorm .double (s.floatAt .double e) = true) :
    EndsWithRoom s (divided s facd .double (s.fpac.get facd) (s.floatAt .double e)) 2 14 (exec (.fdmd facd xa) s) := by
  apply endsWithRoom_of (supervisor_divided h _ _ _ _) (divided_mem _ _ _ _ _)
  rw [run_bind_ok (run_extEa h he), run_bind_ok (run_memFp h .double e), run_bind_ok (run_fpDivide ha hb)]

/-- FDMS clears the low half of its accumulator before it divides (D92). -/
theorem exec_fdms (ha : isNorm .single (s.fpac.get facd) = true) (hb : isNorm .single (s.floatAt .single e) = true) :
    EndsWithRoom s (divided (s.withFpac facd (clearLow (s.fpac.get facd))) facd .single (clearLow (s.fpac.get facd))
      (s.floatAt .single e)) 2 6 (exec (.fdms facd xa) s) := by
  have hcleared : (s.withFpac facd (clearLow (s.fpac.get facd))).fpac.get facd = clearLow (s.fpac.get facd) :=
    quad_get_set_same _ _ _
  have hdivide := run_fpDivide (fac := facd) (s := s.withFpac facd (clearLow (s.fpac.get facd)))
    (by rw [hcleared, isNorm_single_clearLow, ha]) hb
  rw [hcleared] at hdivide
  apply endsWithRoom_of (s := s) (supervisor_divided (s := s.withFpac facd _) h _ _ _ _)
    (divided_mem (s.withFpac facd _) _ _ _ _)
  rw [run_bind_ok (run_extEa h he), run_bind_ok (run_memFp h .single e), run_bind_ok (run_getFpac facd s),
    run_bind_ok (run_setFpac facd _ s), run_bind_ok hdivide]

end

/-- Settles O30: the quotient's two cases, and each instruction by its own run. -/
theorem floatWithStorage : Obligations.FloatWithStorage := by
  unfold Obligations.FloatWithStorage
  refine ⟨fun p x y => ⟨decide_eq_true_iff, rfl, fun _ hle => fpDiv_of_le hle, fpDiv_of_lt⟩,
    fun s facs facd xa e h => ⟨fun ha hb => ⟨exec_fmd h ha hb, exec_fdd h ha hb⟩, exec_fds h, fun he =>
      ⟨fun ha hb => ⟨exec_fmmd h he ha hb, exec_fdmd h he ha hb⟩, exec_fdms h he⟩⟩⟩

end Sys2Proof.Laws
end

section
/-!
Proof of O31, the operands that are neither true zero nor normalised (43_floating_point R334; log 30).
-/

namespace Sys2Proof.Laws

open Sys2Proof.Machine

/-! ## Free results (43_floating_point R334; log 30) -/

/-- The state with any values in an accumulator, OVF, UNF, Z, N, FPPC and the counter of free values. -/
def freed (s : State) (fac : AcNo) (v : QWord) (ovf unf z n : Bool) (fppc : Addr) (k : Nat) : State :=
  { s.withFpac fac v with
    fpsr := { s.fpsr with ovf := ovf, unf := unf, z := z, n := n, fppc := fppc }, freeIdx := k }

/-- An instruction that can set no more than OVF and UNF frees no more. -/
theorem run_freeResult (fac : AcNo) (ovf unf : Bool) (s : State) :
    ∃ (v : QWord) (ovf' unf' z n : Bool) (fppc : Addr) (k : Nat),
      freeResult fac ⟨ovf, unf, false, false⟩ s = .ok () (freed s fac v ovf' unf' z n fppc k) :=
  ⟨_, _, _, _, _, _, _, rfl⟩

/-- An instruction of one word goes on with a free result in an accumulator, all else unchanged. -/
def EndsFree (s : State) (fac : AcNo) (r : Host.Outcome State Fault Refusal) : Prop :=
  ∃ (v : QWord) (ovf unf z n : Bool) (fppc : Addr) (k : Nat), r = .next ((freed s fac v ovf unf z n fppc k).next 1)

/-- With trap enable off the check after a free result goes on to the next word. -/
theorem endsFree_of {s : State} (hte : s.fpsr.te = false) {fac : AcNo} (ovf unf : Bool) {m : M Unit}
    (hm : m s = (do freeResult fac ⟨ovf, unf, false, false⟩; fpCheck 1 : M Unit) s) :
    EndsFree s fac (runInstr m s) := by
  obtain ⟨v, ovf', unf', z, n, fppc, k, hfree⟩ := run_freeResult fac ovf unf s
  have hchecked := floatEnds_of (hm.trans (run_bind_ok hfree))
  exact ⟨v, ovf', unf', z, n, fppc, k, hchecked.1 ((congrArg _ hte).trans (Bool.and_false _))⟩

theorem fpRegReg_free {p : Prec} (op : QWord → QWord → FpResult) {facs facd : AcNo} {s : State}
    (hte : s.fpsr.te = false) (hn : (isNorm p (s.fpac.get facd) && isNorm p (s.fpac.get facs)) = false) :
    EndsFree s facd (runInstr (do fpRegReg p op facs facd; fpCheck 1) s) := by
  have hop : fpRegReg p op facs facd s = freeResult facd expoErr s := by
    unfold fpRegReg fpArith
    rw [run_bind_ok (run_getFpac facs s), run_bind_ok (run_getFpac facd s), if_neg (by rw [hn]; decide)]
  apply endsFree_of hte true true
  rw [run_bind, hop, run_bind]
  rfl

section
variable {fac : AcNo} {s : State} (hte : s.fpsr.te = false) (hn : isNorm .double (s.fpac.get fac) = false)
include hte hn

theorem exec_fint_free : EndsFree s fac (exec (.fint fac) s) := by
  apply endsFree_of hte false false
  rw [run_bind_ok (run_getFpac fac s), if_neg (by rw [hn]; decide)]
  rfl

theorem exec_fhlv_free : EndsFree s fac (exec (.fhlv fac) s) := by
  apply endsFree_of hte false true
  rw [run_bind_ok (run_getFpac fac s), if_neg (by rw [hn]; decide)]
  rfl

end

/-- Settles O31: the arithmetic of two accumulators in one shape, FINT and FHLV by their own run. -/
theorem floatUnnormalised : Obligations.FloatUnnormalised := by
  unfold Obligations.FloatUnnormalised
  intro s facs facd hte some'
  exact ⟨fun hn => ⟨fpRegReg_free _ hte hn, fpRegReg_free _ hte hn, fpRegReg_free _ hte hn⟩,
    fun hn => ⟨fpRegReg_free _ hte hn, fpRegReg_free _ hte hn⟩,
    fun hn => ⟨exec_fint_free hte hn, exec_fhlv_free hte hn⟩⟩

end Sys2Proof.Laws
end

section
/-!
Proofs of O35, O36, O39 and O40 (44_stack R431 to R451), and the lemmas that say once what pushing a run of words does to
memory and how an instruction that pushed ends.
-/

namespace Sys2Proof.Laws

open Sys2Proof.Machine

/-! ## The words above the stack pointer (44_stack R431) -/

/-- A word outside what is stored to reads as before. -/
theorem SameOutside.wordAt_eq {s t : State} {l : List Addr} (h : SameOutside s t l) {a : Addr} (ha : a ∉ l) :
    t.wordAt a = s.wordAt a := by
  have hout (b : Nat) (hb : b / 2 = a.toNat) : b / 2 ∉ l.map BitVec.toNat := fun hm => by
    obtain ⟨x, hx, hxa⟩ := List.mem_map.mp hm
    exact ha (BitVec.eq_of_toNat_eq (hxa.trans hb) ▸ hx)
  unfold State.wordAt Memory.readWord
  rw [h _ (hout _ (by omega)), h _ (hout _ (by omega))]

theorem setWidth_addr_add (x y : Word) : (x + y).setWidth 15 = x.setWidth 15 + (y.setWidth 15 : Addr) :=
  BitVec.setWidth_add x y (by decide)

theorem stackRoom_eq_wordsAbove (s : State) (n : Nat) :
    s.stackRoom n = wordsAbove ((s.wordAt spLoc).setWidth 15) n := rfl

theorem sameOutside_storedAbove : ∀ (ws : List Word) (s : State) (a : Addr),
    SameOutside s (s.storedAbove a ws) (wordsAbove a ws.length)
  | [], s, _ => sameOutside_refl s _
  | w :: ws, s, a => by
    rw [List.length_cons, wordsAbove_succ]
    exact SameOutside.trans (sameOutside_withWord s w List.mem_cons_self)
      (SameOutside.mono (sameOutside_storedAbove ws _ (a + 1)) fun _ => List.mem_cons_of_mem _)

@[simp] theorem wordAt_pushed_spLoc (s : State) (v : Word) : (s.pushed v).wordAt spLoc = s.wordAt spLoc + 1 :=
  wordAt_withWord_same _ _ _

theorem stackRoom_succ (s : State) (v : Word) (n : Nat) :
    s.stackRoom (n + 1) = (s.wordAt spLoc + 1).setWidth 15 :: (s.pushed v).stackRoom n := by
  rw [stackRoom_eq_wordsAbove, stackRoom_eq_wordsAbove, wordAt_pushed_spLoc, wordsAbove_succ, setWidth_addr_add]
  rfl

theorem sameOutside_pushed (s : State) (v : Word) :
    SameOutside s (s.pushed v) [spLoc, (s.wordAt spLoc + 1).setWidth 15] :=
  sameOutside_withWord_after (sameOutside_withWord s v (by simp)) _ (by simp)

theorem sameOutside_pushedAll : ∀ (ws : List Word) (s : State),
    SameOutside s (s.pushedAll ws) (spLoc :: s.stackRoom ws.length)
  | [], s => sameOutside_refl s _
  | w :: ws, s => by
    rw [List.length_cons, stackRoom_succ s w]
    exact SameOutside.trans (SameOutside.mono (sameOutside_pushed s w) (by simp))
      (SameOutside.mono (sameOutside_pushedAll ws (s.pushed w)) (by simp +contextual))

theorem wordAt_pushedAll_spLoc : ∀ (ws : List Word) (s : State),
    (s.pushedAll ws).wordAt spLoc = s.wordAt spLoc + BitVec.ofNat 16 ws.length
  | [], s => (BitVec.add_zero _).symm
  | w :: ws, s => by
    rw [State.pushedAll, wordAt_pushedAll_spLoc ws, wordAt_pushed_spLoc, List.length_cons, Nat.add_comm,
      BitVec.ofNat_add, ← BitVec.add_assoc]
    rfl

@[simp] theorem pushedAll_ac : ∀ (ws : List Word) (s : State), (s.pushedAll ws).ac = s.ac
  | [], _ => rfl
  | _ :: ws, _ => pushedAll_ac ws _

@[simp] theorem pushedAll_cry : ∀ (ws : List Word) (s : State), (s.pushedAll ws).cry = s.cry
  | [], _ => rfl
  | _ :: ws, _ => pushedAll_cry ws _

/-! ## How an instruction that pushed ends (44_stack R434, R435) -/

/-- `runInstr` looks no further than what the instruction comes down to. -/
theorem runInstr_congr {m m' : M Unit} {s u : State} (h : m s = m' u) : runInstr m s = runInstr m' u := by
  unfold runInstr
  rw [h]

theorem runInstr_stackFault {u : State} (hu : Supervisor u) {ret t : Addr}
    (ht : (u.stackFaulted ret).pointerEnd sfaLoc = some t) :
    runInstr (stackFault ret) u = .next ((u.stackFaulted ret).goto t) :=
  runInstr_ok (run_stackFault hu ret t ht)

theorem runInstr_finishAt_room {u : State} (hu : Supervisor u) (ho : u.overflows = false) (a : Addr) :
    runInstr (finishAt a) u = .next (u.goto a) :=
  runInstr_ok (run_finishAt hu ho a)

theorem runInstr_finishAt_fault {u : State} (hu : Supervisor u) (ho : u.overflows = true) {ret t : Addr}
    (ht : (u.stackFaulted ret).pointerEnd sfaLoc = some t) :
    runInstr (finishAt ret) u = .next ((u.stackFaulted ret).goto t) :=
  (runInstr_congr (run_finishAt_fault hu ho ret)).trans (runInstr_stackFault hu ht)

theorem goto_eq_next {s u : State} (h : u.pc = s.pc) (n : Nat) : u.goto (s.pc + BitVec.ofNat 15 n) = u.next n := by
  rw [← h]
  rfl

/-! ## The instructions that push, up to their check (44_stack R440, R442, R445, R448 to R450) -/

/-- After FPSH has stored its words and written the stack pointer (44_stack R437, R450). -/
def floatPushed (s : State) : State :=
  (s.storedAbove ((s.wordAt spLoc).setWidth 15) (fpBlock s)).withWord spLoc (s.wordAt spLoc + 18)

/-- After SAVE has pushed AC0 to AC2, the frame pointer, and carry with AC3 (44_stack R448). -/
def savePushed (s : State) : State :=
  let three := s.pushedAll [s.ac.get 0, s.ac.get 1, s.ac.get 2]
  (three.pushed (three.wordAt fpLoc &&& 0o077777)).pushed (joinWord s.cry ((s.ac.get 3).setWidth 15))

theorem floatPushed_pc (s : State) : (floatPushed s).pc = s.pc := storedAbove_pc _ _ _

section
variable {s : State} (h : Supervisor s)
include h

theorem supervisor_floatPushed : Supervisor (floatPushed s) :=
  supervisor_withWord (supervisor_storedAbove (fpBlock s) _ h) _ _

theorem supervisor_savePushed : Supervisor (savePushed s) :=
  supervisor_pushed (supervisor_pushed (supervisor_pushedAll h _) _) _

theorem exec_psh (acs acd : AcNo) : exec (.psh acs acd) s = runInstr (finishAt (s.pc + 1))
    (s.pushedAll ((List.range ((acd - acs).toNat + 1)).map fun k => s.ac.get (acs + BitVec.ofNat 2 k))) := by
  change execPsh acs acd s = _
  unfold execPsh
  apply runInstr_congr
  rw [run_bind_ok (run_pushAcs _ h acs), run_bind_ok (run_nextPc 1 _), pushedAll_pc]
  rfl

theorem exec_pshr :
    exec .pshr s = runInstr (finishAt (s.pc + 1)) (s.pushed (joinWord false (s.pc + 2))) := by
  change execPshr s = _
  unfold execPshr
  apply runInstr_congr
  rw [run_bind_ok (run_nextPc 2 s), run_bind_ok (run_push h _), run_bind_ok (run_nextPc 1 _)]
  rfl

theorem exec_pshj {xa : ExtAddr} {e : Addr} (he : s.extAt xa = some e) :
    exec (.pshj xa) s = runInstr (finishAt e) (s.pushed (joinWord false (s.pc + 2))) := by
  change execPshj xa s = _
  unfold execPshj
  apply runInstr_congr
  rw [run_bind_ok (run_extEa h he), run_bind_ok (run_nextPc 2 s), run_bind_ok (run_push h _)]
  rfl

theorem exec_fpsh : exec .fpsh s = runInstr (finishAt (s.pc + 1)) (floatPushed s) := by
  change execFpsh s = _
  unfold execFpsh
  apply runInstr_congr
  rw [run_bind_ok (run_memRead h spLoc), run_bind_ok (run_get s), run_bind_ok (run_writeUp _ h _),
    run_bind_ok (run_memWrite (supervisor_storedAbove _ _ h) _ _), run_bind_ok (run_nextPc 1 _), withWord_pc,
    storedAbove_pc]
  rfl

/-- The accumulators SAVE pushes. -/
theorem run_pushThree (k : M Unit) : (do pushAc 0; pushAc 1; pushAc 2; k : M Unit) s =
    k (s.pushedAll [s.ac.get 0, s.ac.get 1, s.ac.get 2]) := by
  have h1 := supervisor_pushed h (s.ac.get 0)
  have h2 := supervisor_pushed h1 (s.ac.get 1)
  have hone := run_pushAc h1 1 (v := s.ac.get 1) (by rw [pushed_ac])
  have htwo := run_pushAc h2 2 (v := s.ac.get 2) (by rw [pushed_ac, pushed_ac])
  rw [run_bind_ok (run_pushAc h 0 rfl), run_bind_ok hone, run_bind_ok htwo]
  rfl

/-- SAVE from its check on: the overflow gives back the stack pointer, whatever the block did to it. -/
theorem exec_save (i : Word) : exec (.save i) s = runInstr
    (if (savePushed s).overflows then do
      memWrite spLoc (s.wordAt spLoc)
      stackFault s.pc
    else do
      memWrite fpLoc ((savePushed s).wordAt spLoc)
      setAc 3 ((savePushed s).wordAt spLoc)
      memWrite spLoc ((savePushed s).wordAt spLoc + i)
      advance 2) (savePushed s) := by
  have hthree := supervisor_pushedAll h [s.ac.get 0, s.ac.get 1, s.ac.get 2]
  have hu := supervisor_savePushed h
  change execSave i s = _
  unfold execSave
  apply runInstr_congr
  rw [run_bind_ok (run_memRead h spLoc), run_pushThree h, run_bind_ok (run_memRead hthree fpLoc),
    run_bind_ok (run_push hthree _), run_bind_ok (run_get _)]
  simp only [pushed_cry, pushed_ac, pushed_pc, pushedAll_cry, pushedAll_ac, pushedAll_pc]
  refine (run_bind_ok (t := savePushed s) (run_push (supervisor_pushed hthree _) _)).trans ?_
  rw [run_bind_ok (run_memRead hu spLoc), run_bind_ok (run_memRead hu slLoc)]
  exact congrFun (if_congr decide_eq_true_iff.symm rfl rfl) (savePushed s)

theorem exec_save_room (i : Word) (ho : (savePushed s).overflows = false) :
    exec (.save i) s = .next (((((savePushed s).withWord fpLoc ((savePushed s).wordAt spLoc)).withAc 3
      ((savePushed s).wordAt spLoc)).withWord spLoc ((savePushed s).wordAt spLoc + i)).next 2) := by
  have hu := supervisor_savePushed h
  rw [exec_save h, ho]
  apply runInstr_ok
  rw [if_neg Bool.false_ne_true, run_bind_ok (run_memWrite hu _ _), run_bind_ok (run_setAc 3 _ _),
    run_bind_ok (run_memWrite (supervisor_withAc (supervisor_withWord hu _ _) _ _) _ _), run_advance]

theorem exec_save_fault (i : Word) (ho : (savePushed s).overflows = true) :
    exec (.save i) s = runInstr (stackFault s.pc) ((savePushed s).withWord spLoc (s.wordAt spLoc)) := by
  rw [exec_save h, ho]
  apply runInstr_congr
  rw [if_pos rfl, run_bind_ok (run_memWrite (supervisor_savePushed h) _ _)]

theorem exec_msp_room {ac : AcNo} (hm : (s.wordAt spLoc + s.ac.get ac).toNat ≤ (s.wordAt slLoc).toNat) :
    exec (.msp ac) s = .next ((s.withWord spLoc (s.wordAt spLoc + s.ac.get ac)).next 1) := by
  change execMsp ac s = _
  unfold execMsp
  apply runInstr_ok
  rw [run_bind_ok (run_memRead h spLoc), run_bind_ok (run_getAc ac s), run_bind_ok (run_memRead h slLoc),
    if_neg (Nat.not_lt.mpr hm), run_bind_ok (run_memWrite h _ _), run_advance]

/-- MSP over the limit writes nothing before the fault sequence (44_stack R449). -/
theorem exec_msp_fault {ac : AcNo} (hm : (s.wordAt slLoc).toNat < (s.wordAt spLoc + s.ac.get ac).toNat) :
    exec (.msp ac) s = runInstr (stackFault s.pc) s := by
  change execMsp ac s = _
  unfold execMsp
  apply runInstr_congr
  rw [run_bind_ok (run_memRead h spLoc), run_bind_ok (run_getAc ac s), run_bind_ok (run_memRead h slLoc), if_pos hm,
    run_bind_ok (run_get s)]

/-! ## The instructions that pop accumulators (44_stack R441, R451) -/

theorem exec_fpop :
    let w := fun k : Nat => s.wordAt ((s.wordAt spLoc).setWidth 15 - BitVec.ofNat 15 k)
    exec .fpop s = .next (State.next { s.withWord spLoc (s.wordAt spLoc - 18) with
      fpac := ⟨w 15 ++ w 14 ++ w 13 ++ w 12, w 11 ++ w 10 ++ w 9 ++ w 8, w 7 ++ w 6 ++ w 5 ++ w 4,
        w 3 ++ w 2 ++ w 1 ++ w 0⟩
      fpsr := Fpsr.ofWords (w 17) (w 16) } 1) := by
  intro w
  change execFpop s = _
  unfold execFpop
  apply runInstr_ok
  rw [run_bind_ok (run_memRead h spLoc), run_bind_ok (run_readDown h 18 _), run_bind_ok (run_memWrite h _ _)]
  rfl

theorem exec_pop (acs acd : AcNo) :
    exec (.pop acs acd) s = .next ((s.popDown ((acs - acd).toNat + 1) acs).next 1) := by
  change execPop acs acd s = _
  unfold execPop
  apply runInstr_ok
  rw [run_bind_ok (run_popAcsDown _ h acs), run_advance]

end

/-- Settles O35: the block is stored upwards in one run, the stack pointer after it. -/
theorem floatStack : Obligations.FloatStack := by
  unfold Obligations.FloatStack
  intro s h u w
  have hu : Supervisor u := supervisor_floatPushed h
  have hpc : u.pc = s.pc := floatPushed_pc s
  refine ⟨fun ho => ?_, ?_, exec_fpop h, rfl⟩
  · rw [exec_fpsh h, ← goto_eq_next hpc 1]
    exact runInstr_finishAt_room hu ho _
  · have hout := sameOutside_storedAbove (fpBlock s) s ((s.wordAt spLoc).setWidth 15)
    exact sameOutside_withWord_after (SameOutside.mono hout fun _ => List.mem_cons_of_mem _) _ List.mem_cons_self

/-- Settles O36: a run of pushes, by induction on the words. -/
theorem pushPop : Obligations.PushPop := by
  unfold Obligations.PushPop
  intro s acs acd h words u
  refine ⟨fun ho => ?_, exec_pop h acs acd, fun ws => ⟨sameOutside_pushedAll ws s, wordAt_pushedAll_spLoc ws s⟩⟩
  rw [exec_psh h, ← goto_eq_next (pushedAll_pc words s) 1]
  exact runInstr_finishAt_room (supervisor_pushedAll h words) ho _

/-- Settles O39: SAVE from its check on, and MSP. -/
theorem saveMsp : Obligations.SaveMsp := by
  unfold Obligations.SaveMsp
  intro s i ac h three u sp moved
  exact ⟨exec_save_room h i, exec_msp_room h⟩

/-- Settles O40: each instruction comes down to its check, and the check to the stack fault. -/
theorem stackFaultTaken : Obligations.StackFaultTaken := by
  unfold Obligations.StackFaultTaken
  intro s acs acd ac xa e t i h faults words psh pshr fpsh three save
  refine ⟨fun ho ht => ?_, fun ho ht => ?_, fun ho he ht => ?_, fun ho ht => ?_, fun ho ht => ?_, fun hm ht => ?_⟩
  · rw [exec_psh h]
    exact runInstr_finishAt_fault (supervisor_pushedAll h words) ho ht
  · rw [exec_pshr h]
    exact runInstr_finishAt_fault (supervisor_pushed h _) ho ht
  · rw [exec_pshj h he]
    exact runInstr_finishAt_fault (supervisor_pushed h _) ho ht
  · rw [exec_fpsh h]
    exact runInstr_finishAt_fault (supervisor_floatPushed h) ho ht
  · rw [exec_save_fault h i ho]
    exact runInstr_stackFault (supervisor_withWord (supervisor_savePushed h) _ _) ht
  · rw [exec_msp_fault h hm]
    exact runInstr_stackFault h ht

end Sys2Proof.Laws
end

section
/-!
Proofs of O37 and O38 (44_stack R442 to R447): the returns, and how what was pushed is popped again.
-/

namespace Sys2Proof.Laws

open Sys2Proof.Machine

/-! ## The returns (44_stack R443, R444, R446, R447) -/

/-- The state with carry and the four accumulators replaced. -/
def withRegs (s : State) (c : Bool) (q : Quad Word) : State := { s with cry := c, ac := q }

/-- Four accumulators written one after the other. -/
theorem quad_set_four {α : Type} (q : Quad α) (a b c d : α) :
    (((q.set 3 d).set 2 c).set 1 b).set 0 a = ⟨a, b, c, d⟩ := rfl

section
variable {s : State} (h : Supervisor s)
include h

theorem supervisor_withRegs (c : Bool) (q : Quad Word) : Supervisor (withRegs s c q) := h

theorem supervisor_goto (a : Addr) : Supervisor (s.goto a) := h

/-- An accumulator loaded from memory. -/
theorem run_loadAc (c : Bool) (q : Quad Word) (i : AcNo) (a : Addr) (k : M Unit) :
    (do let v ← memRead a; setAc i v; k : M Unit) (withRegs s c q) = k (withRegs s c (q.set i (s.wordAt a))) := by
  rw [run_bind_ok (run_memRead (supervisor_withRegs h c q) a)]
  exact run_bind_ok (run_setAc i _ _)

/-- A word of memory copied to another place. -/
theorem run_copyWord (c : Bool) (q : Quad Word) (a b : Addr) (k : M Unit) :
    (do let v ← memRead a; memWrite b v; k : M Unit) (withRegs s c q) = k (withRegs (s.withWord b (s.wordAt a)) c q) := by
  rw [run_bind_ok (run_memRead (supervisor_withRegs h c q) a)]
  exact run_bind_ok (run_memWrite (supervisor_withRegs h c q) b _)

theorem supervisor_popInto (i : AcNo) : Supervisor (s.popInto i) := supervisor_withAc (supervisor_dropped h) i _

theorem supervisor_blockPopped : Supervisor s.blockPopped :=
  supervisor_popInto (supervisor_popInto (supervisor_popInto (supervisor_popInto
    (supervisor_withRegs (supervisor_dropped h) s.top.msb s.ac) 3) 2) 1) 0

theorem exec_popj : exec .popj s = .next (s.dropped.goto (s.top.setWidth 15)) := by
  change execPopj s = _
  unfold execPopj
  apply runInstr_ok
  rw [run_bind_ok (run_pop h), run_bind_ok (run_completeEnable (supervisor_dropped h)), run_setPc]

theorem exec_popb : exec .popb s = .next (s.blockPopped.goto (s.top.setWidth 15)) := by
  change execPopb s = _
  unfold execPopb
  apply runInstr_ok
  rw [run_bind_ok (run_popBlock h), run_bind_ok (run_completeEnable (supervisor_blockPopped h)), run_setPc]

theorem exec_rtn :
    let b := s.withWord spLoc (s.wordAt fpLoc)
    exec .rtn s = .next ((b.blockPopped.withWord fpLoc (b.blockPopped.ac.get 3)).goto (b.top.setWidth 15)) := by
  intro b
  have hb : Supervisor b := supervisor_withWord h _ _
  have hp := supervisor_blockPopped hb
  change execRtn s = _
  unfold execRtn
  apply runInstr_ok
  rw [run_bind_ok (run_memRead h fpLoc), run_bind_ok (run_memWrite h _ _), run_bind_ok (run_popBlock hb),
    run_bind_ok (run_getAc 3 _), run_bind_ok (run_memWrite hp _ _),
    run_bind_ok (run_completeEnable (supervisor_withWord hp _ _)), run_setPc]

/-- RSTR: a word it reads after it has written location 43, 42 or 41 comes from the memory so written. -/
theorem exec_rstr :
    let sp : Addr := (s.wordAt spLoc).setWidth 15
    let w := fun (t : State) (k : Nat) => t.wordAt (sp - BitVec.ofNat 15 k)
    let s1 := s.withWord sfaLoc (w s 5)
    let s2 := s1.withWord slLoc (w s1 6)
    let s3 := s2.withWord fpLoc (w s2 7)
    let s4 := s3.withWord spLoc (w s3 8)
    exec .rstr s =
      .next (State.goto { s4 with cry := (w s 0).msb, ac := ⟨w s 4, w s 3, w s 2, w s 1⟩ } ((w s 0).setWidth 15)) := by
  intro sp w s1 s2 s3 s4
  have h1 := supervisor_withWord h sfaLoc (w s 5)
  have h2 := supervisor_withWord h1 slLoc (w s1 6)
  have h3 := supervisor_withWord h2 fpLoc (w s2 7)
  have h4 := supervisor_withWord h3 spLoc (w s3 8)
  have hw : s.wordAt sp = w s 0 := congrArg s.wordAt (BitVec.sub_zero sp).symm
  have hcry : setCry (w s 0).msb s = .ok () (withRegs s (w s 0).msb s.ac) := rfl
  change execRstr s = _
  unfold execRstr
  apply runInstr_ok
  rw [run_bind_ok (run_memRead h spLoc), run_bind_ok (run_memRead h sp), hw, run_bind_ok hcry, run_loadAc h,
    run_loadAc h, run_loadAc h, run_loadAc h, quad_set_four]
  refine (run_copyWord h _ _ _ sfaLoc _).trans ((run_copyWord h1 _ _ _ slLoc _).trans
    ((run_copyWord h2 _ _ _ fpLoc _).trans ((run_copyWord h3 _ _ _ spLoc _).trans ?_)))
  exact run_bind_ok (run_completeEnable (supervisor_withRegs h4 _ _))

end

/-- Settles O38: each return by its own lemma, each push up to its check. -/
theorem stackReturns : Obligations.StackReturns := by
  unfold Obligations.StackReturns
  intro s xa e h u b sp w s1 s2 s3 s4
  have hu : Supervisor u := supervisor_pushed h _
  refine ⟨fun ho => ?_, fun ho he => ?_, exec_popj h, exec_popb h, exec_rtn h, exec_rstr h⟩
  · rw [exec_pshr h, ← goto_eq_next (pushed_pc s _) 1]
    exact runInstr_finishAt_room hu ho _
  · rw [exec_pshj h he]
    exact runInstr_finishAt_room hu ho e

/-! ## Popping what was pushed (44_stack R431, R432) -/

theorem wordAt_popInto_spLoc (s : State) (i : AcNo) : (s.popInto i).wordAt spLoc = s.wordAt spLoc - 1 :=
  wordAt_withWord_same _ _ _

theorem sameOutside_popDown : ∀ (n : Nat) (s : State) (i : AcNo), SameOutside s (s.popDown n i) [spLoc]
  | 0, s, _ => sameOutside_refl s _
  | n + 1, s, i => SameOutside.trans (sameOutside_withWord s _ List.mem_cons_self)
      (sameOutside_popDown n (s.popInto i) (i - 1))

theorem wordAt_popDown_spLoc : ∀ (n : Nat) (s : State) (i : AcNo),
    (s.popDown n i).wordAt spLoc = s.wordAt spLoc - BitVec.ofNat 16 n
  | 0, _, _ => (BitVec.sub_zero _).symm
  | n + 1, s, i => by
    rw [State.popDown, wordAt_popDown_spLoc n, wordAt_popInto_spLoc, BitVec.ofNat_add, sub_sub, add_comm]
    rfl

/-- A run of words shorter than the address space does not come round to its own start. -/
theorem not_mem_wordsAbove (a : Addr) {n : Nat} (hn : n < 32768) : a ∉ wordsAbove a n := by
  intro hm
  obtain ⟨k, hk, hka⟩ := List.mem_map.mp hm
  rw [List.mem_range] at hk
  have hnat := congrArg BitVec.toNat hka
  rw [BitVec.toNat_add, BitVec.toNat_ofNat] at hnat
  have ha := a.isLt
  omega

theorem wordAt_pushed_top {s : State} {v : Word} (h : (s.wordAt spLoc + 1).setWidth 15 ≠ spLoc) :
    (s.pushed v).wordAt ((s.wordAt spLoc + 1).setWidth 15) = v := by
  unfold State.pushed
  rw [wordAt_withWord_other _ _ h.symm, wordAt_withWord_same]

/-- Word `k` of those pushed stands `k + 1` above the old stack pointer, unless the run of pushes meets the stack pointer's
location or itself. -/
theorem wordAt_pushedAll {ws : List Word} {s : State} (hlen : ws.length ≤ 32768) (hroom : spLoc ∉ s.stackRoom ws.length)
    {k : Nat} (hk : k < ws.length) :
    (s.pushedAll ws).wordAt ((s.wordAt spLoc + BitVec.ofNat 16 (k + 1)).setWidth 15) = ws[k] := by
  induction ws generalizing s k with
  | nil => exact absurd hk (Nat.not_lt_zero k)
  | cons w ws ih =>
    rw [List.length_cons] at hlen hk
    rw [List.length_cons, stackRoom_succ s w, List.mem_cons, not_or] at hroom
    obtain ⟨hfirst, hrest⟩ := hroom
    cases k with
    | zero =>
      have habove : (s.wordAt spLoc + 1).setWidth 15 ∉ spLoc :: (s.pushed w).stackRoom ws.length := by
        rw [List.mem_cons, not_or, stackRoom_eq_wordsAbove, wordAt_pushed_spLoc]
        exact ⟨Ne.symm hfirst, not_mem_wordsAbove _ (by omega)⟩
      have hkept := SameOutside.wordAt_eq (sameOutside_pushedAll ws (s.pushed w)) habove
      exact hkept.trans (wordAt_pushed_top (Ne.symm hfirst))
    | succ k =>
      have hk' : k < ws.length := by omega
      have hih := ih (by omega) hrest hk'
      rw [wordAt_pushed_spLoc, add_assoc, add_comm 1] at hih
      exact BitVec.ofNat_add (k + 1) 1 ▸ hih

theorem mem_stackRoom (s : State) {k n : Nat} (hk : k < n) :
    (s.wordAt spLoc + BitVec.ofNat 16 (k + 1)).setWidth 15 ∈ s.stackRoom n := by
  rw [setWidth_addr_add, BitVec.setWidth_ofNat_of_le (by decide)]
  exact List.mem_map.mpr ⟨k, List.mem_range.mpr hk, rfl⟩

/-- After words were pushed, and memory has changed no more than in the stack pointer, which stands at the last of the first
`n` of them, what the `j`-th pop from there gives. -/
theorem top_popDown_of_pushedAll {s y : State} {ws : List Word} (hlen : ws.length ≤ 32768)
    (hroom : spLoc ∉ s.stackRoom ws.length) (hy : SameOutside (s.pushedAll ws) y [spLoc]) {n : Nat}
    (hn : n ≤ ws.length) (hsp : y.wordAt spLoc = s.wordAt spLoc + BitVec.ofNat 16 n) (i : AcNo) {j : Nat} (hj : j < n) :
    (y.popDown j i).top = ws[n - 1 - j] := by
  have hk : n - 1 - j < ws.length := by omega
  have hout : SameOutside (s.pushedAll ws) (y.popDown j i) [spLoc] :=
    SameOutside.trans hy (sameOutside_popDown j y i)
  have hpointer : (y.popDown j i).wordAt spLoc = s.wordAt spLoc + BitVec.ofNat 16 (n - 1 - j + 1) := by
    have hsplit : BitVec.ofNat 16 n = BitVec.ofNat 16 (n - 1 - j + 1) + BitVec.ofNat 16 j := by
      rw [← BitVec.ofNat_add, show n - 1 - j + 1 + j = n by omega]
    rw [wordAt_popDown_spLoc, hsp, hsplit, ← add_assoc, add_sub_cancel_right]
  have hne : (s.wordAt spLoc + BitVec.ofNat 16 (n - 1 - j + 1)).setWidth 15 ∉ [spLoc] := fun hm =>
    hroom (List.mem_singleton.mp hm ▸ mem_stackRoom s hk)
  rw [State.top, hpointer, SameOutside.wordAt_eq hout hne, wordAt_pushedAll hlen hroom hk]

@[simp] theorem msb_joinWord (b : Bool) (a : Addr) : (joinWord b a).msb = b := by
  rw [joinWord, BitVec.msb_append]
  exact BitVec.msb_ofBool b

theorem blockPopped_eq_popDown (s : State) : s.blockPopped = (withRegs s.dropped s.top.msb s.ac).popDown 4 3 := rfl

theorem popDown_four_ac (s : State) : (s.popDown 4 3).ac =
    ⟨(s.popDown 3 3).top, (s.popDown 2 3).top, (s.popDown 1 3).top, (s.popDown 0 3).top⟩ := rfl

theorem blockPopped_cry (s : State) : s.blockPopped.cry = s.top.msb := rfl

theorem wordAt_withRegs (s : State) (c : Bool) (q : Quad Word) (a : Addr) : (withRegs s c q).wordAt a = s.wordAt a := rfl

theorem wordAt_dropped_spLoc (s : State) : s.dropped.wordAt spLoc = s.wordAt spLoc - 1 := wordAt_withWord_same _ _ _

theorem wordAt_blockPopped_spLoc (s : State) : s.blockPopped.wordAt spLoc = s.wordAt spLoc - 5 := by
  rw [blockPopped_eq_popDown, wordAt_popDown_spLoc, wordAt_withRegs, wordAt_dropped_spLoc, sub_sub]
  rfl

theorem sameOutside_withRegs {s t : State} {l : List Addr} (h : SameOutside s t l) (c : Bool) (q : Quad Word) :
    SameOutside s (withRegs t c q) l := h

theorem sameOutside_goto {s t : State} {l : List Addr} (h : SameOutside s t l) (a : Addr) :
    SameOutside s (t.goto a) l := h

theorem wordAt_goto (s : State) (a b : Addr) : (s.goto a).wordAt b = s.wordAt b := rfl

theorem sameOutside_dropped (s : State) : SameOutside s s.dropped [spLoc] :=
  sameOutside_withWord s _ List.mem_cons_self

theorem sameOutside_blockPopped (s : State) : SameOutside s s.blockPopped [spLoc] := by
  rw [blockPopped_eq_popDown]
  exact SameOutside.trans (sameOutside_withRegs (sameOutside_dropped s) _ _) (sameOutside_popDown 4 _ 3)

theorem returnBlock_length (s : State) (ret : Addr) : (s.returnBlock ret).length = 5 := rfl

section
variable {s b : State} {ret : Addr} (hroom : spLoc ∉ s.stackRoom 5) (hout : SameOutside (s.withBlock ret) b [spLoc])
  (hsp : b.wordAt spLoc = s.wordAt spLoc + 5)
include hroom hout hsp

theorem top_of_withBlock : b.top = joinWord s.cry ret := by
  have hlen := returnBlock_length s ret
  exact top_popDown_of_pushedAll (ws := s.returnBlock ret) (by omega) hroom hout hlen.ge hsp 0 (j := 0) (by decide)

theorem blockPopped_ac_of_withBlock : b.blockPopped.ac = s.ac := by
  have hlen := returnBlock_length s ret
  have hout' := sameOutside_withRegs (SameOutside.trans hout (sameOutside_dropped b)) b.top.msb b.ac
  have hsp' : (withRegs b.dropped b.top.msb b.ac).wordAt spLoc = s.wordAt spLoc + BitVec.ofNat 16 4 := by
    rw [wordAt_withRegs, wordAt_dropped_spLoc, hsp]
    exact add_sub_assoc _ _ _
  have hpop {j : Nat} (hj : j < 4) := top_popDown_of_pushedAll (by omega) hroom hout' (by omega) hsp' 3 hj
  rw [blockPopped_eq_popDown, popDown_four_ac, hpop (by decide), hpop (by decide), hpop (by decide), hpop (by decide)]
  rfl

/-- POPB in a state with a return block on top of the stack. -/
theorem exec_popb_of_withBlock (hb : Supervisor b) :
    ∃ t : State, exec .popb b = .next t ∧ t.ac = s.ac ∧ t.cry = s.cry ∧ t.pc = ret ∧
      t.wordAt spLoc = s.wordAt spLoc ∧ SameOutside s t (spLoc :: s.stackRoom 5) := by
  have htop := top_of_withBlock hroom hout hsp
  refine ⟨_, exec_popb hb, ?_, ?_, ?_, ?_, ?_⟩
  · rw [goto_ac, blockPopped_ac_of_withBlock hroom hout hsp]
  · rw [goto_cry, blockPopped_cry, htop, msb_joinWord]
  · rw [goto_pc, htop, setWidth_joinWord]
  · rw [wordAt_goto, wordAt_blockPopped_spLoc, hsp, add_sub_cancel_right]
  · have hpopped := SameOutside.trans hout (sameOutside_blockPopped b)
    exact sameOutside_goto (SameOutside.trans (sameOutside_pushedAll (s.returnBlock ret) s)
      (SameOutside.mono hpopped (by simp))) _

end

/-- Settles O37: the five pops give the words of the block in turn, the last pushed first. -/
theorem returnRestores : Obligations.ReturnRestores := by
  unfold Obligations.ReturnRestores
  intro s ret handler h hroom
  have hsp := wordAt_pushedAll_spLoc (s.returnBlock ret) s
  exact exec_popb_of_withBlock hroom (sameOutside_goto (sameOutside_refl _ _) handler)
    ((wordAt_goto _ handler spLoc).trans hsp) (supervisor_goto (supervisor_withBlock h ret) handler)

end Sys2Proof.Laws
end

section
/-!
Proofs of O41 to O43: the jumps, the counting skips, the comparisons and DSPA in supervisor mode (45_program_flow R465 to
R476). Each piece that instructions share runs once, whatever the form of the address.
-/

namespace Sys2Proof.Laws

open Sys2Proof.Machine

/-! ## Shared pieces -/

@[simp] theorem run_jumpSub (len : Nat) (e : Addr) (s : State) :
    jumpSub len e s = .ok () ((s.withAc 3 (joinWord false (s.pc + BitVec.ofNat 15 len))).goto e) := rfl

@[simp] theorem run_compareSkip (acs acd : AcNo) (c : Word → Word → Bool) (s : State) :
    compareSkip acs acd c s = .ok () (s.nextSkip 1 (c (s.ac.get acs) (s.ac.get acd))) := rfl

/-- The read and the write of a count, with the bus held between them, and the skip (45_program_flow R469 to R472). -/
theorem run_countAndSkip {s : State} (h : Supervisor s) (len : Nat) (d : Word) (e : Addr) :
    countAndSkip len d e s =
      .ok () ((s.withWord e (s.wordAt e + d)).nextSkip len (decide (s.wordAt e + d = 0))) := by
  unfold countAndSkip
  rw [run_bind_ok (run_memRead h e), run_bind_ok (run_memWriteHeld h e _), run_skipIf]

/-- The test of CLM and DSPA is one conjunction of signed comparisons (45_program_flow R475, R476). -/
theorem inLimits_eq (l h n : Word) : inLimits l h n = decide (l.toInt ≤ n.toInt ∧ n.toInt ≤ h.toInt) :=
  (Bool.decide_and _ _).symm

/-! ## Jumps and counts, short and extended -/

section
variable {s : State} (h : Supervisor s) {e : Addr}
include h

theorem runInstr_shortEa {sa : ShortAddr} (he : s.shortAt sa = some e) (f : Addr → M Unit) :
    runInstr (shortEa sa >>= f) s = runInstr (f e) s := runInstr_bind_ok (run_shortEa h he)

theorem runInstr_extEa {xa : ExtAddr} (he : s.extAt xa = some e) (f : Addr → M Unit) :
    runInstr (extEa xa >>= f) s = runInstr (f e) s := runInstr_bind_ok (run_extEa h he)

theorem runInstr_countUp (len : Nat) : runInstr (countAndSkip len 1 e) s =
    .next ((s.withWord e (s.wordAt e + 1)).nextSkip len (decide (s.wordAt e + 1 = 0))) :=
  runInstr_ok (run_countAndSkip h len 1 e)

theorem runInstr_countDown (len : Nat) : runInstr (countAndSkip len (-1) e) s =
    .next ((s.withWord e (s.wordAt e - 1)).nextSkip len (decide (s.wordAt e - 1 = 0))) := by
  rw [BitVec.sub_eq_add_neg]
  exact runInstr_ok (run_countAndSkip h len (-1) e)

end

/-- Settles O41: the address is resolved first, and the jump runs from it. -/
theorem jumps : Obligations.Jumps := by
  unfold Obligations.Jumps
  intro s sa xa e h
  refine ⟨fun he => ⟨?_, ?_⟩, fun he => ⟨?_, ?_⟩⟩
  · exact (runInstr_shortEa h he _).trans (runInstr_ok (run_setPc e s))
  · exact (runInstr_shortEa h he _).trans (runInstr_ok (run_jumpSub 1 e s))
  · exact (runInstr_extEa h he _).trans (runInstr_ok (run_setPc e s))
  · exact (runInstr_extEa h he _).trans (runInstr_ok (run_jumpSub 2 e s))

/-- Settles O42: the address is resolved first, and the count runs on its word. -/
theorem countSkips : Obligations.CountSkips := by
  unfold Obligations.CountSkips
  intro s sa xa e h up down
  refine ⟨fun he => ⟨?_, ?_⟩, fun he => ⟨?_, ?_⟩, fun v => sameOutside_withWord s v (List.mem_singleton_self e)⟩
  · exact (runInstr_shortEa h he _).trans (runInstr_countUp h 1)
  · exact (runInstr_shortEa h he _).trans (runInstr_countDown h 1)
  · exact (runInstr_extEa h he _).trans (runInstr_countUp h 2)
  · exact (runInstr_extEa h he _).trans (runInstr_countDown h 2)

/-! ## Comparisons and dispatch -/

theorem exec_sge (acs acd : AcNo) (s : State) : exec (.sge acs acd) s =
    .next (s.nextSkip 1 (decide ((s.ac.get acd).toInt ≤ (s.ac.get acs).toInt))) := by
  change execSge acs acd s = _
  unfold execSge
  exact runInstr_ok (run_compareSkip acs acd _ s)

theorem exec_sgt (acs acd : AcNo) (s : State) : exec (.sgt acs acd) s =
    .next (s.nextSkip 1 (decide ((s.ac.get acd).toInt < (s.ac.get acs).toInt))) := by
  change execSgt acs acd s = _
  unfold execSgt
  exact runInstr_ok (run_compareSkip acs acd _ s)

section
variable {s : State} (h : Supervisor s)
include h

theorem exec_clm (acs acd : AcNo) :
    let a : Addr := if acs = acd then s.pc + 1 else (s.ac.get acd).setWidth 15
    exec (.clm acs acd) s = .next (s.nextSkip (if acs = acd then 3 else 1)
      (decide ((s.wordAt a).toInt ≤ (s.ac.get acs).toInt ∧ (s.ac.get acs).toInt ≤ (s.wordAt (a + 1)).toInt))) := by
  intro a
  change execClm acs acd s = _
  unfold execClm
  apply runInstr_ok
  rw [run_bind_ok (run_get s), run_bind_ok (run_memRead h _), run_bind_ok (run_memRead h _), run_skipIf,
    inLimits_eq]
  rfl

/-- DSPA from its comparison on (45_program_flow R476). -/
theorem exec_dspa {ac : AcNo} {xa : ExtAddr} {e : Addr} (he : s.extAt xa = some e) :
    let l := s.wordAt (e - 2)
    exec (.dspa ac xa) s = runInstr
      (if inLimits l (s.wordAt (e - 1)) (s.ac.get ac) then do
        let w ← memRead (e + (s.ac.get ac - l).setWidth 15)
        if w = 0o177777 then advance 2
        else do
          let t ← resolveWord w
          setPc t
      else advance 2) s := by
  intro l
  change execDspa ac xa s = _
  unfold execDspa
  rw [runInstr_extEa h he, runInstr_bind_ok (run_memRead h _), runInstr_bind_ok (run_memRead h _),
    runInstr_bind_ok (run_getAc ac s)]

theorem exec_dspa_outside {ac : AcNo} {xa : ExtAddr} {e : Addr} (he : s.extAt xa = some e)
    (hin : inLimits (s.wordAt (e - 2)) (s.wordAt (e - 1)) (s.ac.get ac) = false) :
    exec (.dspa ac xa) s = .next (s.next 2) := by
  rw [exec_dspa h he, if_neg (Bool.not_eq_true _ ▸ hin)]
  exact runInstr_ok (run_advance 2 s)

/-- Within the limits the table entry decides. -/
theorem exec_dspa_within {ac : AcNo} {xa : ExtAddr} {e : Addr} (he : s.extAt xa = some e)
    (hin : inLimits (s.wordAt (e - 2)) (s.wordAt (e - 1)) (s.ac.get ac) = true) :
    let w := s.wordAt (e + (s.ac.get ac - s.wordAt (e - 2)).setWidth 15)
    exec (.dspa ac xa) s = runInstr (if w = 0o177777 then advance 2 else resolveWord w >>= setPc) s := by
  intro w
  rw [exec_dspa h he, if_pos hin, runInstr_bind_ok (run_memRead h _)]

end

/-- Settles O43: SGE and SGT are one comparison, CLM reads its limits at one address, and DSPA splits at its limits and at
its table entry. -/
theorem comparisons : Obligations.Comparisons := by
  unfold Obligations.Comparisons
  intro s acs acd ac xa e t x a n l w within
  have hlimits : inLimits l (s.wordAt (e - 1)) n = decide within := inLimits_eq _ _ _
  refine ⟨exec_sge acs acd s, exec_sgt acs acd s, fun h => exec_clm h acs acd,
    fun h he => ⟨fun hout => ?_, fun hin hw => ?_, fun hin hw ht => ?_⟩⟩
  · exact exec_dspa_outside h he (hlimits.trans (decide_eq_false hout))
  · rw [exec_dspa_within h he (hlimits.trans (decide_eq_true hin)), if_pos hw]
    exact runInstr_ok (run_advance 2 s)
  · rw [exec_dspa_within h he (hlimits.trans (decide_eq_true hin)), if_neg hw, runInstr_bind_ok (run_resolveWord h ht)]
    exact runInstr_ok (run_setPc t s)

end Sys2Proof.Laws
end

section
/-!
Proof of O44. XCT reads two words as the fetch does, so that what its word decodes to runs at once. For BLM and LMP the
instruction as it stands and the one XCT goes on with are the same but for what follows an item that is not the last: the
pieces before it leave the program counter, and so a result with the program counter where it was is one with items left.
-/

namespace Sys2Proof.Laws

open Sys2Proof.Machine

/-! ## Pieces that leave the program counter -/

/-- Supervisor mode, the program counter at `p`. -/
def SupervisorAt (p : Addr) (s : State) : Prop := Supervisor s ∧ s.pc = p

/-- A result that goes on does so with `Q`; one that stops does so as a fault of the model, not as a MAP fault. -/
def EndsOrFaults {α : Type} (Q : State → Prop) : EStateM.Result Stop State α → Prop
  | .ok _ t => Q t
  | .error e _ => ∃ f, e = .fault f

/-- The piece keeps supervisor mode and the program counter. -/
def KeepsPc {α : Type} (m : M α) : Prop := ∀ p s, SupervisorAt p s → EndsOrFaults (SupervisorAt p) (m s)

section
variable {α β : Type}

/-- A piece that always goes on. -/
theorem KeepsPc.of_ok {m : M α} (hm : ∀ p s, SupervisorAt p s → ∃ a t, m s = .ok a t ∧ SupervisorAt p t) : KeepsPc m := by
  intro p s hs
  obtain ⟨a, t, hok, ht⟩ := hm p s hs
  rw [hok]
  exact ht

theorem KeepsPc.bind {m : M α} {f : α → M β} (hm : KeepsPc m) (hf : ∀ a, KeepsPc (f a)) : KeepsPc (m >>= f) := by
  intro p s hs
  have hend := hm p s hs
  rw [run_bind]
  cases hres : m s with
  | ok a t => rw [hres] at hend; exact hf a p t hend
  | error e t => rw [hres] at hend; exact hend

theorem KeepsPc.seq {m : M α} {k : M β} (hm : KeepsPc m) (hk : KeepsPc k) : KeepsPc (m >>= fun _ => k) :=
  hm.bind fun _ => hk

theorem KeepsPc.ite {c : Prop} [Decidable c] {m k : M α} (hm : KeepsPc m) (hk : KeepsPc k) :
    KeepsPc (if c then m else k) := by
  split
  · exact hm
  · exact hk

end

theorem keepsPc_get : KeepsPc (get : M State) := fun _ _ hs => hs

theorem keepsPc_getAc (i : AcNo) : KeepsPc (getAc i) := fun _ _ hs => hs

theorem keepsPc_setAc (i : AcNo) (v : Word) : KeepsPc (setAc i v) := fun _ _ hs => hs

theorem keepsPc_drawFree (n : Nat) : KeepsPc (drawFree n) := fun _ _ hs => hs

theorem keepsPc_drawBit : KeepsPc drawBit := fun _ _ hs => hs

theorem keepsPc_memRead (a : Addr) : KeepsPc (memRead a) :=
  .of_ok fun _ s hs => ⟨_, s, run_memRead hs.1 a, hs⟩

theorem keepsPc_memWrite (a : Addr) (v : Word) : KeepsPc (memWrite a v) :=
  .of_ok fun _ _ hs => ⟨_, _, run_memWrite hs.1 a v, hs⟩

/-- A chain ends, or is endless (20_memory R115). -/
theorem keepsPc_resolve_indirect (ia : Addr) : KeepsPc (resolve true ia) := by
  intro p s hs
  cases hend : s.pointerEnd ia with
  | some e => rw [run_resolve (ind := true) hs.1 hend]; exact hs
  | none => rw [run_resolve_endless hs.1 hend]; exact ⟨_, rfl⟩

theorem keepsPc_resolveAc (i : AcNo) : KeepsPc (resolveAc i) :=
  (keepsPc_getAc i).bind fun _ => .ite ((keepsPc_resolve_indirect _).bind fun _ => keepsPc_setAc i _) fun _ _ hs => hs

/-- Loading a map changes one of the maps. -/
theorem keepsPc_setSelEntry (sel : State → BitVec 3) (page : BitVec 5) (e : MapEntry) :
    KeepsPc (modify fun s => setSelEntry s (sel s) page e) := by
  intro p s hs
  have hmaps : SupervisorAt p (setSelEntry s (sel s) page e) := by
    unfold setSelEntry
    split <;> exact hs
  exact hmaps

theorem keepsPc_loadEntry (w : Word) : KeepsPc (loadEntry w) :=
  (keepsPc_getAc 0).bind fun _ => .ite (keepsPc_setSelEntry _ _ _) <|
    keepsPc_drawBit.bind fun _ => (keepsPc_drawFree 10).bind fun _ => keepsPc_setSelEntry _ _ _

theorem keepsPc_lmpWord : KeepsPc lmpWord :=
  (keepsPc_getAc 2).bind fun _ => (keepsPc_memRead _).bind fun w => (keepsPc_loadEntry w).seq <|
    (keepsPc_getAc 1).bind fun _ => (keepsPc_setAc 1 _).seq (keepsPc_setAc 2 _)

/-! ## The instruction as it stands, and under XCT -/

/-- The word `w` kept for the next step (45_program_flow R480). -/
def keeping (w : Word) (s : State) : State := { s with xct := some w }

theorem run_keepWord (w : Word) (s : State) : keepWord w s = .ok () (keeping w s) := rfl

/-- A state that has not left `p` keeps the word `w`. -/
def keptAt (w : Word) (p : Addr) (t : State) : State := if t.pc = p then keeping w t else t

/-- `r'` is `r` with the word `w` kept where the program counter has not left `p`; `r` does not stop at a MAP fault. -/
def KeptResult (w : Word) (p : Addr) (r r' : EStateM.Result Stop State Unit) : Prop :=
  match r with
  | .ok _ t => r' = .ok () (keptAt w p t)
  | .error e _ => ∃ f, e = .fault f

/-- From every state of supervisor mode `k` ends as `m` does, the word `w` kept where the program counter is left. -/
def RunsKept (w : Word) (m k : M Unit) : Prop := ∀ p s, SupervisorAt p s → KeptResult w p (m s) (k s)

section
variable {w : Word}

/-- The same piece before both. -/
theorem RunsKept.bind {α : Type} {m : M α} {f g : α → M Unit} (hm : KeepsPc m) (hfg : ∀ a, RunsKept w (f a) (g a)) :
    RunsKept w (m >>= f) (m >>= g) := by
  intro p s hs
  have hend := hm p s hs
  rw [run_bind, run_bind]
  cases hres : m s with
  | ok a t => rw [hres] at hend; exact hfg a p t hend
  | error e t => rw [hres] at hend; exact hend

theorem RunsKept.ite {c : Prop} [Decidable c] {m k m' k' : M Unit} (hm : RunsKept w m m') (hk : RunsKept w k k') :
    RunsKept w (if c then m else k) (if c then m' else k') := by
  split
  · exact hm
  · exact hk

/-- The end of the instruction leaves the program counter's place. -/
theorem runsKept_advance : RunsKept w (advance 1) (advance 1) := by
  rintro p s ⟨-, rfl⟩
  have hmoved : (s.next 1).pc ≠ s.pc := by
    rw [next_pc]
    bv_omega
  rw [run_advance]
  exact congrArg _ (if_neg hmoved).symm

/-- An item that is not the last leaves it there, and under XCT the word is kept. -/
theorem runsKept_keepWord : RunsKept w (pure ()) (keepWord w) := by
  rintro p s ⟨-, hp⟩
  rw [run_pure, run_keepWord]
  exact congrArg _ (if_pos hp).symm

theorem runsKept_blockStep (f : State → Word → Word) : RunsKept w (blockStep f (pure ())) (blockStep f (keepWord w)) :=
  .bind (keepsPc_getAc 1) fun _ => .ite runsKept_advance <|
    .bind (keepsPc_resolveAc 2) fun _ => .bind (keepsPc_resolveAc 3) fun _ =>
    .bind (keepsPc_getAc 2) fun _ => .bind (keepsPc_memRead _) fun _ => .bind (keepsPc_getAc 3) fun _ =>
    .bind keepsPc_get fun _ => .bind (keepsPc_memWrite _ _) fun _ => .bind (keepsPc_setAc 1 _) fun _ =>
    .bind (keepsPc_setAc 2 _) fun _ => .bind (keepsPc_setAc 3 _) fun _ => .ite runsKept_advance runsKept_keepWord

theorem runsKept_lmpLoop : ∀ fuel : Nat, RunsKept w (lmpLoop (pure ()) fuel) (lmpLoop (keepWord w) fuel)
  | 0 => runsKept_advance
  | fuel + 1 => .bind (keepsPc_getAc 1) fun _ => .ite runsKept_advance <|
      .bind keepsPc_lmpWord fun _ => .bind keepsPc_get fun _ =>
        .ite runsKept_advance (.ite (runsKept_lmpLoop fuel) runsKept_keepWord)

/-- In supervisor mode LMP is not protected. -/
theorem run_lmpStep {s : State} (h : Supervisor s) (again : M Unit) :
    lmpStep again s = (resolveAc 2 >>= fun _ => lmpLoop again 65536) s := by
  unfold lmpStep
  rw [run_bind_ok (run_get s), if_neg (by simp [h.1])]

theorem runsKept_lmpStep : RunsKept w (lmpStep (pure ())) (lmpStep (keepWord w)) := by
  intro p s hs
  rw [run_lmpStep hs.1, run_lmpStep hs.1]
  exact RunsKept.bind (keepsPc_resolveAc 2) (fun _ => runsKept_lmpLoop 65536) p s hs

/-- A next state of the instruction as it stands is, with the word kept, that of the one under XCT. -/
theorem RunsKept.runInstr {m k : M Unit} (hmk : RunsKept w m k) {s t : State} (h : Supervisor s)
    (ht : runInstr m s = .next t) : runInstr k s = .next (keptAt w s.pc t) := by
  have hkept := hmk s.pc s ⟨h, rfl⟩
  unfold Machine.runInstr at ht
  cases hres : m s with
  | ok a u =>
    rw [hres] at hkept ht
    obtain rfl : u = t := Host.Outcome.next.inj ht
    exact runInstr_ok hkept
  | error e u =>
    rw [hres] at hkept ht
    obtain ⟨f, rfl⟩ := hkept
    cases ht

/-- BLM and LMP under XCT: the same step, the word kept while items are left (45_program_flow R480; log 20). -/
theorem execUnder_of_next {i : Instr} (hi : i = .blm ∨ i = .lmp) {s t : State} (h : Supervisor s)
    (ht : exec i s = .next t) : execUnder w i s = .next (keptAt w s.pc t) := by
  obtain rfl | rfl := hi
  · exact (runsKept_blockStep _).runInstr h ht
  · exact runsKept_lmpStep.runInstr h ht

end

/-! ## XCT, and the step that goes on with its word -/

/-- XCT runs what its word and the word after the XCT decode to (45_program_flow R480). -/
theorem exec_xct {s : State} (h : Supervisor s) {ac : AcNo} {i : Instr}
    (hd : decodeWords false (s.ac.get ac) (operandWord false (s.ac.get ac) (s.wordAt (s.pc + 1))) = some i) :
    exec (.xct ac) s = execUnder (s.ac.get ac) i s := by
  change execXct ac s = _
  unfold execXct
  rw [run_secondWord h]
  simp only [supervisor_lefMode h, hd]

theorem withoutXct_of_none {s : State} (hx : s.xct = none) : ({ s with xct := none } : State) = s := by
  rw [← hx]

/-- The word XCT took is fetched in place of the one at the program counter (45_program_flow R480). -/
theorem run_fetchWords_keeping {s : State} (h : Supervisor s) (hx : s.xct = none) (w : Word) :
    fetchWords (keeping w s) = .ok (w, operandWord false w (s.wordAt (s.pc + 1))) s := by
  have hfirst : firstWord (keeping w s) = .ok w s := by
    calc firstWord (keeping w s) = .ok w { s with xct := none } := rfl
      _ = .ok w s := by rw [withoutXct_of_none hx]
  unfold fetchWords
  rw [run_bind_ok hfirst, run_bind_ok (run_secondWord h w), run_pure]

/-- A step with the word `w` kept executes what it decodes to (45_program_flow R480). -/
theorem step_keeping {s : State} {w : Word} {i : Instr} (h : Supervisor s) (hx : s.xct = none)
    (hd : decodeWords false w (operandWord false w (s.wordAt (s.pc + 1))) = some i)
    (hrun : s.runState = .running) (hin : s.inputs = []) (htrp : s.con.trp = false) (hint : interruptDue s = false) :
    step (keeping w s) = execHeld (some w) i (countHold (oneCycle i) s) := by
  have hlef : lefMode (keeping w s) = false := supervisor_lefMode h
  have hkept : (keeping w s).xct = some w := rfl
  rw [step_eq_runNext (s := keeping w s) hrun hin htrp hint]
  unfold runNext
  simp only [run_fetchWords_keeping h hx, hlef, hd, hkept]

/-- Settles O44: what the word decodes to decides; BLM and LMP run kept, in the step of the XCT and in those after it. -/
theorem xctResult : Obligations.XctResult := by
  unfold Obligations.XctResult
  intro s ac i rest h hx hdec held free keeps
  have hd := decodeWords_of_decode hdec
  refine ⟨fun hi => ?_, fun hi hne => ?_, fun hi => ⟨fun t ht => ?_, fun hfree t ht => ?_⟩, ?_⟩
  · rw [exec_xct h hd]
    simp only [List.mem_cons, List.not_mem_nil, or_false] at hi
    obtain rfl | rfl | rfl | rfl | rfl := hi <;> rfl
  · have hplain : plainUnder i = true := by
      cases i
      case xct k => exact absurd rfl (hne k)
      case bam | cmv | cmp | cmt | ctr | blm | lmp => simp at hi
      all_goals rfl
    rw [exec_xct h hd, execUnder_of_plain hplain]
  · rw [exec_xct h hd]
    exact execUnder_of_next hi h ht
  · obtain ⟨hrun, hin, htrp, hint⟩ := hfree
    have hstep := step_keeping h hx hd hrun hin htrp hint
    have hunder := execUnder_of_next (w := s.ac.get ac) (s := countHold false s) hi h ht
    obtain rfl | rfl := hi
    · exact hstep.trans hunder
    · exact hstep.trans hunder
  · rintro k rfl
    refine ⟨exec_xct h hd, fun hfree => ?_⟩
    obtain ⟨hrun, hin, htrp, hint⟩ := hfree
    exact step_keeping h hx hd hrun hin htrp hint

end Sys2Proof.Laws
end

section
/-!
Proof of O45: SYC, XOP and XOP1 push their return block, find their handler, and end as every instruction that pushed.
-/

namespace Sys2Proof.Laws

open Sys2Proof.Machine

/-! ## The system call (45_program_flow R484) -/

/-- A trap whose return block overflows the stack ends in the stack fault, with its own handler as the return address
(44_stack R435, 60_exceptions R656). -/
theorem run_takeTrap_fault {s : State} (h : Supervisor s) {loc ret a t : Addr}
    (ha : (s.withBlock ret).pointerEnd loc = some a) (ho : (s.withBlock ret).overflows = true)
    (ht : ((s.withBlock ret).stackFaulted a).pointerEnd sfaLoc = some t) :
    takeTrap loc ret s = .ok () (((s.withBlock ret).stackFaulted a).goto t) := by
  have hb := supervisor_withBlock h ret
  unfold takeTrap
  rw [run_bind_ok (run_pushBlock h ret), run_bind_ok (run_indirectAt hb ha), run_finishAt_fault hb ho]
  exact run_stackFault hb a t ht

/-- SYC with a field that is not zero: the trap through location 2 from the state with the map off, then the hold. -/
theorem exec_syc_trap {s u : State} {acs acd : AcNo} (hne : ¬ (acs = 0 ∧ acd = 0))
    (hu : takeTrap 2 (s.pc + 1) { s with mapOn := false } = .ok () u) :
    exec (.syc acs acd) s = .next { u with ionHold := .last } := by
  change execSyc acs acd s = _
  unfold execSyc
  apply runInstr_ok
  rw [run_bind_ok (run_modify _ s), if_neg (by simpa using hne), run_bind_ok (run_get _), run_bind_ok hu]
  rfl

/-- SYC with both fields zero pushes nothing. -/
theorem exec_syc_zero {s : State} {acs acd : AcNo} {a : Addr} (hz : acs = 0 ∧ acd = 0)
    (h : Supervisor { s with mapOn := false }) (ha : State.pointerEnd { s with mapOn := false } 2 = some a) :
    exec (.syc acs acd) s = .next (State.goto { s with mapOn := false, ionHold := .last } a) := by
  change execSyc acs acd s = _
  unfold execSyc
  apply runInstr_ok
  rw [run_bind_ok (run_modify _ s), if_pos (by simpa using hz), run_bind_ok (run_indirectAt h ha)]
  rfl

/-! ## The extended operations (45_program_flow R490) -/

/-- After the return block is pushed and the addresses of the saved copies are in AC2 and AC3. -/
def copiesPushed (s : State) (acs acd : AcNo) : State :=
  ((s.withBlock (s.pc + 1)).withAc 2 (joinWord false ((s.wordAt spLoc).setWidth 15 + 1 + acs.setWidth 15))).withAc 3
    (joinWord false ((s.wordAt spLoc).setWidth 15 + 1 + acd.setWidth 15))

theorem supervisor_copiesPushed {s : State} (h : Supervisor s) (acs acd : AcNo) : Supervisor (copiesPushed s acs acd) :=
  supervisor_withAc (supervisor_withAc (supervisor_withBlock h _) _ _) _ _

/-- The place in the table of location 44 of the operation numbered `n`. -/
def tableEntry (u : State) (n : Nat) : Addr := (u.wordAt 0o44).setWidth 15 + BitVec.ofNat 15 n

/-- An extended operation comes down to its stack check, with the handler of its table entry. -/
theorem run_extendedOp {s : State} (h : Supervisor s) {acs acd : AcNo} {n : Nat} {a : Addr}
    (ha : (copiesPushed s acs acd).pointerEnd (tableEntry (copiesPushed s acs acd) n) = some a) :
    extendedOp acs acd n s = finishAt a (copiesPushed s acs acd) := by
  have hu := supervisor_copiesPushed h acs acd
  unfold extendedOp
  rw [run_bind_ok (run_memRead h spLoc), run_bind_ok (run_get s), run_bind_ok (run_pushBlock h _),
    run_bind_ok (run_setAc 2 _ _), run_bind_ok (run_setAc 3 _ _)]
  exact (run_bind_ok (run_memRead hu 0o44)).trans (run_bind_ok (run_indirectAt hu ha))

/-- An extended operation ends in its handler, or in the stack fault with its handler as the return address. -/
theorem extendedOp_ends {s : State} (h : Supervisor s) {acs acd : AcNo} {n : Nat} {a t : Addr}
    (ha : (copiesPushed s acs acd).pointerEnd (tableEntry (copiesPushed s acs acd) n) = some a) :
    ((copiesPushed s acs acd).overflows = false →
      runInstr (extendedOp acs acd n) s = .next ((copiesPushed s acs acd).goto a)) ∧
    ((copiesPushed s acs acd).overflows = true →
      ((copiesPushed s acs acd).stackFaulted a).pointerEnd sfaLoc = some t →
      runInstr (extendedOp acs acd n) s = .next (((copiesPushed s acs acd).stackFaulted a).goto t)) := by
  have hu := supervisor_copiesPushed h acs acd
  rw [runInstr_congr (run_extendedOp h ha)]
  exact ⟨fun ho => runInstr_finishAt_room hu ho a, fun ho ht => runInstr_finishAt_fault hu ho ht⟩

/-- Settles O45: SYC through the trap sequence, XOP and XOP1 through the extended operation. -/
theorem trapCalls : Obligations.TrapCalls := by
  unfold Obligations.TrapCalls
  intro s acs acd op op1 a t off called sp copies entry calls
  refine ⟨fun h hne ha => ⟨fun ho => ?_, fun ho ht => ?_⟩, ?_, fun h => ⟨fun ha => ?_, fun ha => ?_⟩⟩
  · exact exec_syc_trap hne (run_takeTrap h ha ho)
  · exact exec_syc_trap hne (run_takeTrap_fault h ha ho ht)
  · exact fun h hs hd ha => exec_syc_zero ⟨hs, hd⟩ h ha
  · exact extendedOp_ends h ha
  · exact extendedOp_ends h ha

end Sys2Proof.Laws
end

section
/-!
Proof of O8, and what O56 needs of the fetch: in user mode both words of an instruction are mapped references.
-/

namespace Sys2Proof.Laws

open Sys2Proof.Machine

/-! ## The fetch in user mode (45_program_flow R461, 47_map R576) -/

section
variable {s : State}

theorem firstWord_eq (hx : s.xct = none) : firstWord s = memRead s.pc s := by
  unfold firstWord
  rw [run_bind_ok (run_get s)]
  simp only [hx]

theorem run_firstWord_mapped (hq : Quiet s) (hx : s.xct = none) (hpc : s.mapped s.pc = true) :
    firstWord s = .ok (s.mappedWord s.pc) s.referred :=
  (firstWord_eq hx).trans (run_memRead_mapped hq hpc)

/-- A mapped reference made already, another changes nothing but what it reads. -/
theorem run_memRead_referred (hq : Quiet s) {a : Addr} (ha : s.mapped a = true) :
    memRead a s.referred = .ok (s.mappedWord a) s.referred :=
  run_memRead_mapped (s := s.referred) hq ha

/-- Where I/O protection does not apply, a second word is fetched where there is one (30_encoding R160). -/
theorem secondWord_eq (hio : ioProtected s = false) (w : Word) :
    secondWord w s = if wordsOf (lefMode s) w = 2 then memRead (s.pc + 1) s else .ok 0 s := by
  unfold secondWord
  rw [run_bind_ok (run_get s)]
  simp only [hio, Bool.false_and, Bool.not_false, Bool.and_true, decide_eq_true_eq]
  split <;> rfl

/-- The second word of a fetch whose first word was a mapped reference. -/
theorem run_secondWord_mapped (hq : Quiet s) (hio : ioProtected s = false) {w : Word}
    (hnext : wordsOf (lefMode s) w = 2 → s.mapped (s.pc + 1) = true) :
    secondWord w s.referred = .ok (operandWord (lefMode s) w (s.mappedWord (s.pc + 1))) s.referred := by
  have hlef : lefMode s.referred = lefMode s := rfl
  rw [secondWord_eq (s := s.referred) hio, hlef]
  unfold operandWord
  split
  · next htwo => exact run_memRead_referred hq (hnext htwo)
  · rfl

theorem run_fetchWords_mapped (hq : Quiet s) (hx : s.xct = none) (hio : ioProtected s = false)
    (hpc : s.mapped s.pc = true)
    (hnext : wordsOf (lefMode s) (s.mappedWord s.pc) = 2 → s.mapped (s.pc + 1) = true) :
    fetchWords s = .ok (s.mappedWord s.pc,
      operandWord (lefMode s) (s.mappedWord s.pc) (s.mappedWord (s.pc + 1))) s.referred := by
  unfold fetchWords
  rw [run_bind_ok (run_firstWord_mapped hq hx hpc), run_bind_ok (run_secondWord_mapped hq hio hnext), run_pure]

end

/-- Settles O8: the length of the instruction says whether its second word is fetched, and both words come through the
map. -/
theorem stepRunsDecodedMapped : Obligations.StepRunsDecodedMapped := by
  unfold Obligations.StepRunsDecodedMapped
  intro s i rest hrun hx hin htrp hint hq hio hpc hnext hdec
  have hwords := decodeWords_of_decode hdec
  have hfetch := run_fetchWords_mapped hq hx hio hpc fun htwo =>
    hnext ((wordsOf_of_decodeWords hwords).symm.trans htwo)
  rw [step_eq_runNext hrun hin htrp hint]
  exact runNext_of_fetch hx hfetch hwords

end Sys2Proof.Laws
end

section
/-!
Proof of O56. A MAP protection fault leaves the state of the reference that met it; `mapFaults_of` gives the sequence that
follows, so that what is left is where each instruction stops: in its address, in its data reference, in its fetch, or at
the test of I/O protection.
-/

namespace Sys2Proof.Laws

open Sys2Proof.Machine

/-! ## Chains of user mode, a pointer at a time (20_memory R114, 47_map R585) -/

/-- With no single cycle waiting a data read is an ordinary one. -/
theorem dataRead_eq_memRead {s : State} (hsc : s.scPending = false) (a : Addr) : dataRead a s = memRead a s := by
  unfold dataRead
  rw [run_bind_ok (run_get s), if_neg (by simp [hsc])]

theorem dataWrite_eq_memWrite {s : State} (hsc : s.scPending = false) (a : Addr) (v : Word) :
    dataWrite a v s = memWrite a v s := by
  unfold dataWrite
  rw [run_bind_ok (run_get s), if_neg (by simp [hsc])]

/-- User mode, memory quiet and no single cycle waiting. -/
def UserQuiet (s : State) : Prop := s.mapOn = true ∧ s.scPending = false ∧ Quiet s

section
variable {s : State} (h : UserQuiet s)
include h

theorem UserQuiet.on : s.mapOn = true := h.1

theorem UserQuiet.noCycle : s.scPending = false := h.2.1

theorem UserQuiet.quiet : Quiet s := h.2.2

theorem run_dataRead_mapped {a : Addr} (ha : s.mapped a = true) : dataRead a s = .ok (s.mappedWord a) s.referred :=
  (dataRead_eq_memRead h.noCycle a).trans (run_memRead_mapped h.quiet ha)

theorem run_dataRead_invalid {a : Addr} (ha : (userEntry s a).invalid = true) :
    dataRead a s = .error (.mapFault .validity) s :=
  (dataRead_eq_memRead h.noCycle a).trans (run_memRead_invalid h.on ha)

theorem run_dataWrite_invalid {a : Addr} (ha : (userEntry s a).invalid = true) (v : Word) :
    dataWrite a v s = .error (.mapFault .validity) s :=
  (dataWrite_eq_memWrite h.noCycle a v).trans (run_memWrite_invalid h.on ha v)

theorem run_dataWrite_protected {a : Addr} (hi : (userEntry s a).invalid = false)
    (hw : writeProtected s (userEntry s a) = true) (v : Word) : dataWrite a v s = .error (.mapFault .write) s :=
  (dataWrite_eq_memWrite h.noCycle a v).trans (run_memWrite_protected h.on hi hw v)

/-- A pointer in a valid, installed page, the limit not met. -/
theorem run_chain_pointer (hp : s.mapPending = false) (n : Nat) {level : Nat} {a : Addr}
    (hlim : indirectLimit s level = false) (ha : s.mapped a = true) :
    chain dataRead (n + 1) level a s =
      if (s.mappedWord a).msb then chain dataRead n (level + 1) ((s.mappedWord a).setWidth 15) s.referred
      else .ok ((s.mappedWord a).setWidth 15) s.referred := by
  conv_lhs => unfold chain
  rw [run_bind_ok (run_get s), if_neg (by simp [hlim]), run_bind_ok (run_dataRead_mapped h ha),
    run_bind_ok (run_completeEnable_none (s := s.referred) hp)]
  split <;> rfl

/-- A pointer in an invalid page, the limit not met (47_map R577). -/
theorem run_chain_invalid (n : Nat) {level : Nat} {a : Addr} (hlim : indirectLimit s level = false)
    (ha : (userEntry s a).invalid = true) :
    chain dataRead (n + 1) level a s = .error (.mapFault .validity) s := by
  unfold chain
  rw [run_bind_ok (run_get s), if_neg (by simp [hlim]), run_bind_error (run_dataRead_invalid h ha)]

omit h in
/-- A pointer at the limit is not read (47_map R585). -/
theorem run_chain_limit (n : Nat) {level : Nat} (a : Addr) (hlim : indirectLimit s level = true) :
    chain dataRead (n + 1) level a s = .error (.mapFault .indirect) s := by
  unfold chain
  rw [run_bind_ok (run_get s), if_pos hlim, run_stop]

end

/-- After `k` mapped references. -/
def afterReferences (s : State) (k : Nat) : State := if k = 0 then s else s.referred

theorem afterReferences_referred (s : State) (k : Nat) : afterReferences s.referred k = s.referred := by
  unfold afterReferences
  split <;> rfl

theorem pointerMapped_referred (s : State) : ∀ (k : Nat) (a : Addr), s.referred.pointerMapped k a = s.pointerMapped k a
  | 0, _ => rfl
  | k + 1, a => by
    unfold State.pointerMapped
    rw [pointerMapped_referred s k]
    rfl

/-- A limit not met at a level: indirect protection off, or fewer than fifteen pointers read (47_map R585). -/
theorem indirectLimit_eq_false {s : State} {level : Nat} (h : level < 15 ∨ s.ms.indp = false) :
    indirectLimit s level = false := by
  unfold indirectLimit
  obtain hlevel | hind := h
  · rw [decide_eq_false (by omega), Bool.and_false]
  · rw [hind, Bool.and_false, Bool.false_and]

/-- The pointers of a chain up to one of them, the limit not met by those before it. -/
theorem run_chain_upto (n : Nat) {b : Addr} : ∀ (k level : Nat) {s : State} {a : Addr}, UserQuiet s →
    s.mapPending = false → (level + k ≤ 15 ∨ s.ms.indp = false) → s.pointerMapped k a = some b →
    chain dataRead (n + k) level a s = chain dataRead n (level + k) b (afterReferences s k)
  | 0, level, s, a, _, _, _, hb => by
    obtain rfl : a = b := Option.some.inj hb
    rfl
  | k + 1, level, s, a, h, hp, hlim, hb => by
    have hlevel : indirectLimit s level = false := indirectLimit_eq_false (hlim.imp_left (by omega))
    unfold State.pointerMapped at hb
    split at hb
    · next hpointer =>
      obtain ⟨hmapped, hmsb⟩ := Bool.and_eq_true_iff.mp hpointer
      rw [← pointerMapped_referred] at hb
      calc chain dataRead (n + (k + 1)) level a s
          = chain dataRead (n + k) (level + 1) ((s.mappedWord a).setWidth 15) s.referred := by
            rw [← Nat.add_assoc, run_chain_pointer h hp (n + k) hlevel hmapped, if_pos hmsb]
        _ = chain dataRead n (level + 1 + k) b (afterReferences s.referred k) :=
            run_chain_upto n k (level + 1) (s := s.referred) h hp (hlim.imp_left (by omega)) hb
        _ = chain dataRead n (level + (k + 1)) b (afterReferences s (k + 1)) := by
            rw [afterReferences_referred, Nat.add_assoc, Nat.add_comm 1 k]
            rfl
    · cases hb

/-- A chain that ends without a fault. -/
theorem run_chain_ends : ∀ (n level : Nat) {s : State} {a e : Addr}, UserQuiet s →
    s.mapPending = false → s.followMapped n level a = some e →
    chain dataRead n level a s = .ok e s.referred
  | 0, _, _, _, _, _, _, he => by cases he
  | n + 1, level, s, _, _, h, hp, he => by
    unfold State.followMapped at he
    split at he
    · cases he
    · next hguard =>
      simp only [Bool.or_eq_true, Bool.not_eq_true', not_or, Bool.not_eq_true, Bool.not_eq_false] at hguard
      obtain ⟨hlim, hmapped⟩ := hguard
      rw [run_chain_pointer h hp n hlim hmapped]
      split at he
      · next hmsb =>
        rw [← followMapped_referred] at he
        rw [if_pos hmsb, run_chain_ends n (level + 1) (s := s.referred) h hp he]
        rfl
      · next hmsb =>
        rw [if_neg hmsb, Option.some.inj he]

/-! ## The loads and stores (47_map R577, R578) -/

/-- LDA and ELDA, their address given by its indirect bit and intermediate address. -/
def loadFrom (ac : AcNo) (len : Nat) (ind : Bool) (ia : Addr) : M Unit := do
  let e ← resolveBy dataRead ind ia
  let v ← dataRead e
  setAc ac v
  advance len

/-- STA and ESTA, their address given so. -/
def storeTo (ac : AcNo) (len : Nat) (ind : Bool) (ia : Addr) : M Unit := do
  let e ← resolveBy dataRead ind ia
  let v ← getAc ac
  dataWrite e v
  advance len

theorem exec_lda_eq (ac : AcNo) (sa : ShortAddr) (s : State) :
    exec (.lda ac sa) s = runInstr (loadFrom ac 1 sa.ind (shortIa s sa)) s := rfl

theorem exec_sta_eq (ac : AcNo) (sa : ShortAddr) (s : State) :
    exec (.sta ac sa) s = runInstr (storeTo ac 1 sa.ind (shortIa s sa)) s := rfl

theorem exec_elda_eq (ac : AcNo) (xa : ExtAddr) (s : State) :
    exec (.elda ac xa) s = runInstr (loadFrom ac 2 xa.ind (extIa s xa)) s := rfl

theorem exec_esta_eq (ac : AcNo) (xa : ExtAddr) (s : State) :
    exec (.esta ac xa) s = runInstr (storeTo ac 2 xa.ind (extIa s xa)) s := rfl

section
variable {s : State} {j : Nat}

theorem UserQuiet.afterReferences (h : UserQuiet s) (j : Nat) : UserQuiet (afterReferences s j) := by
  unfold Laws.afterReferences
  split <;> exact h

theorem userQuiet_of_afterReferences (h : UserQuiet (afterReferences s j)) : UserQuiet s := by
  unfold afterReferences at h
  split at h <;> exact h

theorem userEntry_afterReferences (s : State) (j : Nat) (a : Addr) :
    userEntry (afterReferences s j) a = userEntry s a := by
  unfold afterReferences
  split <;> rfl

theorem writeProtected_afterReferences (s : State) (j : Nat) (e : MapEntry) :
    writeProtected (afterReferences s j) e = writeProtected s e := by
  unfold afterReferences
  split <;> rfl

theorem mapOn_afterReferences (s : State) (j : Nat) : (afterReferences s j).mapOn = s.mapOn := by
  unfold afterReferences
  split <;> rfl

variable (hon : s.mapOn = true)
include hon

/-- What `MapFaults` supposes of the state the fault left holds of the one the instruction started in. -/
theorem mapFaults_after {k : MapFaultKind} {m : M Unit}
    (hm : UserQuiet s → m s = .error (.mapFault k) (afterReferences s j)) :
    MapFaults (afterReferences s j) k (runInstr m s) := by
  intro hp hsc hq
  have hquiet : UserQuiet s := userQuiet_of_afterReferences ⟨(mapOn_afterReferences s j).trans hon, hsc, hq⟩
  exact mapFaults_of (hm hquiet) hp hsc hq

variable {ac : AcNo} {len : Nat} {ind : Bool} {ia : Addr}

/-- The address meets the fault. -/
theorem bothFault_of_resolve {k : MapFaultKind}
    (hres : UserQuiet s → resolveBy dataRead ind ia s = .error (.mapFault k) (afterReferences s j)) :
    MapFaults (afterReferences s j) k (runInstr (loadFrom ac len ind ia) s) ∧
      MapFaults (afterReferences s j) k (runInstr (storeTo ac len ind ia) s) :=
  ⟨mapFaults_after hon fun hu => run_bind_error (hres hu), mapFaults_after hon fun hu => run_bind_error (hres hu)⟩

variable {e : Addr} (hres : UserQuiet s → resolveBy dataRead ind ia s = .ok e (afterReferences s j))
include hres

/-- The operand stands in an invalid page (47_map R577). -/
theorem bothFault_of_operand (hinv : (userEntry s e).invalid = true) :
    MapFaults (afterReferences s j) .validity (runInstr (loadFrom ac len ind ia) s) ∧
      MapFaults (afterReferences s j) .validity (runInstr (storeTo ac len ind ia) s) := by
  rw [← userEntry_afterReferences s j] at hinv
  refine ⟨mapFaults_after hon fun hu => ?_, mapFaults_after hon fun hu => ?_⟩
  · unfold loadFrom
    rw [run_bind_ok (hres hu), run_bind_error (run_dataRead_invalid (hu.afterReferences j) hinv)]
  · unfold storeTo
    rw [run_bind_ok (hres hu), run_bind_ok (run_getAc ac _),
      run_bind_error (run_dataWrite_invalid (hu.afterReferences j) hinv _)]

/-- The operand stands in a protected page (47_map R578, R586). -/
theorem storeFaults_of_operand (hinv : (userEntry s e).invalid = false)
    (hprot : writeProtected s (userEntry s e) = true) :
    MapFaults (afterReferences s j) .write (runInstr (storeTo ac len ind ia) s) := by
  rw [← writeProtected_afterReferences s j] at hprot
  rw [← userEntry_afterReferences s j] at hinv hprot
  refine mapFaults_after hon fun hu => ?_
  unfold storeTo
  rw [run_bind_ok (hres hu), run_bind_ok (run_getAc ac _),
    run_bind_error (run_dataWrite_protected (hu.afterReferences j) hinv hprot _)]

end

/-- How the load and the store of an address end where the address or the operand meets a fault. -/
def ReferencesFault (s : State) (ind : Bool) (ia : Addr) (load store : Host.Outcome State Fault Refusal) : Prop :=
  let both := fun (u : State) (k : MapFaultKind) => MapFaults u k load ∧ MapFaults u k store
  (ind = false → (userEntry s ia).invalid = true → both s .validity) ∧
  (ind = false → (userEntry s ia).invalid = false → writeProtected s (userEntry s ia) = true → MapFaults s .write store) ∧
  (ind = true → s.mapPending = false →
    (∀ (k : Nat) (a : Addr), k < Config.chainFuel → (k < 15 ∨ s.ms.indp = false) → s.pointerMapped k ia = some a →
      (userEntry s a).invalid = true → both (afterReferences s k) .validity) ∧
    (∀ a : Addr, s.ms.indp = true → s.pointerMapped 15 ia = some a → both s.referred .indirect) ∧
    ∀ e : Addr, s.mappedAt true ia = some e →
      ((userEntry s e).invalid = true → both s.referred .validity) ∧
      ((userEntry s e).invalid = false → writeProtected s (userEntry s e) = true → MapFaults s.referred .write store))

/-- The pointer after `k` indirect ones stands in an invalid page. -/
theorem run_resolve_invalidPointer {s : State} (h : UserQuiet s) (hp : s.mapPending = false) {k : Nat} {ia a : Addr}
    (hfuel : k < Config.chainFuel) (hlim : k < 15 ∨ s.ms.indp = false) (ha : s.pointerMapped k ia = some a)
    (hinv : (userEntry s a).invalid = true) :
    resolveBy dataRead true ia s = .error (.mapFault .validity) (afterReferences s k) := by
  obtain ⟨n, hn⟩ := Nat.exists_eq_add_of_lt hfuel
  have hsplit : Config.chainFuel = n + 1 + k := by omega
  have hlimit : indirectLimit (afterReferences s k) k = false := by
    have hstart := indirectLimit_eq_false hlim
    unfold afterReferences
    split <;> exact hstart
  unfold resolveBy
  rw [if_pos rfl, hsplit, run_chain_upto (n + 1) k 0 h hp (hlim.imp_left (by omega)) ha, Nat.zero_add]
  exact run_chain_invalid (h.afterReferences k) n hlimit ((userEntry_afterReferences s k a).symm ▸ hinv)

/-- The sixteenth pointer under indirect protection. -/
theorem run_resolve_limit {s : State} (h : UserQuiet s) (hp : s.mapPending = false) {ia a : Addr}
    (hind : s.ms.indp = true) (ha : s.pointerMapped 15 ia = some a) :
    resolveBy dataRead true ia s = .error (.mapFault .indirect) s.referred := by
  have hlimit : indirectLimit s.referred 15 = true := by
    unfold indirectLimit
    rw [referred_mapOn, referred_ms, h.on, hind]
    rfl
  unfold resolveBy
  rw [if_pos rfl, show Config.chainFuel = 65522 + 1 + 15 from rfl, run_chain_upto _ 15 0 h hp (.inl (by omega)) ha]
  exact run_chain_limit _ a hlimit

theorem referencesFault {s : State} (hon : s.mapOn = true) (ac : AcNo) (len : Nat) (ind : Bool) (ia : Addr) :
    ReferencesFault s ind ia (runInstr (loadFrom ac len ind ia) s) (runInstr (storeTo ac len ind ia) s) := by
  unfold ReferencesFault
  refine ⟨?_, ?_, ?_⟩
  · rintro rfl hinv
    exact bothFault_of_operand (j := 0) hon (fun _ => rfl) hinv
  · rintro rfl hinv hprot
    exact storeFaults_of_operand (j := 0) hon (fun _ => rfl) hinv hprot
  · rintro rfl hp
    refine ⟨fun k a hfuel hlim ha hinv => ?_, fun a hind ha => ?_, fun e he => ?_⟩
    · exact bothFault_of_resolve hon fun hu => run_resolve_invalidPointer hu hp hfuel hlim ha hinv
    · exact bothFault_of_resolve (j := 1) hon fun hu => run_resolve_limit hu hp hind ha
    · have hres : UserQuiet s → resolveBy dataRead true ia s = .ok e (afterReferences s 1) :=
        fun hu => run_chain_ends _ 0 hu hp he
      exact ⟨bothFault_of_operand hon hres, storeFaults_of_operand hon hres⟩

/-! ## The fetch (47_map R577) -/

/-- A fetch that meets a fault ends the step in its sequence, the hold counted down as for no one-cycle instruction (46_io
R522; log 26). -/
theorem runNext_mapFault {s u : State} {k : MapFaultKind} (hf : fetchWords s = .error (.mapFault k) u) :
    runNext s = runInstr (stop (.mapFault k)) (countHold false u) := by
  unfold runNext
  simp only [hf]
  rfl

theorem run_fetchWords_invalid {s : State} (hon : s.mapOn = true) (hx : s.xct = none)
    (hinv : (userEntry s s.pc).invalid = true) : fetchWords s = .error (.mapFault .validity) s := by
  unfold fetchWords
  exact run_bind_error ((firstWord_eq hx).trans (run_memRead_invalid hon hinv))

theorem run_fetchWords_second_invalid {s : State} (hon : s.mapOn = true) (hq : Quiet s) (hx : s.xct = none)
    (hio : ioProtected s = false) (hpc : s.mapped s.pc = true) (htwo : wordsOf (lefMode s) (s.mappedWord s.pc) = 2)
    (hinv : (userEntry s (s.pc + 1)).invalid = true) :
    fetchWords s = .error (.mapFault .validity) s.referred := by
  have hsecond : secondWord (s.mappedWord s.pc) s.referred = .error (.mapFault .validity) s.referred := by
    rw [secondWord_eq (s := s.referred) hio]
    exact (if_pos htwo).trans (run_memRead_invalid (s := s.referred) hon hinv)
  unfold fetchWords
  rw [run_bind_ok (run_firstWord_mapped hq hx hpc), run_bind_error hsecond]

/-! ## I/O protection (47_map R579) -/

/-- The instructions of the I/O format (46_io R501). -/
def isIo (i : Instr) : Bool :=
  match i with
  | .nio _ _ _ | .dia _ _ _ | .doa _ _ _ | .dib _ _ _ | .dob _ _ _ | .dic _ _ _ | .doc _ _ _ | .skp _ _ | .dis _ _ _ => true
  | .inten _ | .intds _ | .nioCpu _ _ | .reads _ _ | .doaCpu _ _ | .doapCpu _ | .inta _ _ | .vct _ _ | .msko _ _ => true
  | .iorst _ _ | .halta _ _ | .skpCpu _ | .disCpu _ _ => true
  | .diaMap _ _ | .doaMap _ _ | .dobMap _ _ | .dicMap _ _ | .docMap _ _ | .niopMap _ | .nioMap _ _ | .dibMap _ _ => true
  | .disMap _ _ => true
  | .diaTti _ _ | .doaTto _ _ | .doaRtc _ _ | .diaPit _ _ | .doaPit _ _ | .doaErcc _ _ | .diaErcc _ _ => true
  | .dibErcc _ _ | .diaApl _ _ | .doaApl _ _ => true
  | _ => false

theorem decodeIoCpu_isIo (w : Word) : isIo (decodeIoCpu w) = true := by
  unfold decodeIoCpu
  dsimp only
  split
  case h_1 => split <;> rfl
  case h_3 => split <;> rfl
  case h_8 => split <;> rfl
  all_goals rfl

theorem decodeIoMap_isIo (w : Word) : isIo (decodeIoMap w) = true := by
  unfold decodeIoMap
  dsimp only
  split
  case h_1 => split <;> rfl
  case h_8 => split <;> rfl
  all_goals rfl

theorem decodeIoGeneric_isIo (w : Word) : isIo (decodeIoGeneric w) = true := by
  unfold decodeIoGeneric
  dsimp only
  split
  case h_8 => split <;> rfl
  all_goals rfl

theorem decodeIoBoard_isIo {w : Word} {i : Instr} (h : decodeIoBoard w = some i) : isIo i = true := by
  unfold decodeIoBoard at h
  dsimp only at h
  split at h
  case h_7 => cases h
  all_goals split at h <;> cases h <;> rfl

theorem decodeIo_isIo (w w2 : Word) : isIo (decodeIo w w2) = true := by
  unfold decodeIo
  split
  · rfl
  · split
    · exact decodeIoCpu_isIo w
    · exact decodeIoMap_isIo w
    · split
      · next hboard => exact decodeIoBoard_isIo hboard
      · exact decodeIoGeneric_isIo w

theorem ioFormat_iff (i : Instr) : ioFormat i = true ↔ field ((encode i).getD 0 0) 13 3 = 3 := by
  unfold ioFormat field
  rw [decide_eq_true_iff, ← BitVec.toNat_inj, BitVec.extractLsb'_toNat, Nat.shiftRight_eq_div_pow]
  rfl

/-- An ALC word has bit 0 one (30_encoding R164). -/
theorem alc_not_ioFormat {k : Nat} (hk : k < 8) (o : AlcOps) : field (word (0o100000 + k * 256 + o.bits)) 13 3 ≠ 3 := by
  obtain ⟨x, y, z, u, v, w, e, -, -, -, -, -, -, lx, ly, lz, lu, lv, lw⟩ := alcOps_bits o
  rw [e, field_word (by omega)]
  omega

/-- A word of the I/O format, LEF mode off, is that of an I/O instruction. -/
theorem isIo_of_ioFormat {i : Instr} (hsel : i.selectedIn false = true) (hfmt : ioFormat i = true) : isIo i = true := by
  rw [ioFormat_iff] at hfmt
  cases hwf : i.wf with
  | true =>
    have hdec := decodeWords_of_encode hwf hsel rfl rfl
    have hdecIo : decodeWords false ((encode i).getD 0 0) ((encode i).getD 1 0) =
        some (decodeIo ((encode i).getD 0 0) ((encode i).getD 1 0)) := by
      unfold decodeWords
      rw [hfmt]
      rfl
    rw [← Option.some.inj (hdecIo.symm.trans hdec)]
    exact decodeIo_isIo _ _
  | false =>
    cases i
    case com o => exact absurd hfmt (alc_not_ioFormat (k := 0) (by decide) o)
    case neg o => exact absurd hfmt (alc_not_ioFormat (k := 1) (by decide) o)
    case mov o => exact absurd hfmt (alc_not_ioFormat (k := 2) (by decide) o)
    case inc o => exact absurd hfmt (alc_not_ioFormat (k := 3) (by decide) o)
    case adc o => exact absurd hfmt (alc_not_ioFormat (k := 4) (by decide) o)
    case sub o => exact absurd hfmt (alc_not_ioFormat (k := 5) (by decide) o)
    case add o => exact absurd hfmt (alc_not_ioFormat (k := 6) (by decide) o)
    case and o => exact absurd hfmt (alc_not_ioFormat (k := 7) (by decide) o)
    case nio | dia | doa | dib | dob | dic | doc | skp | dis | nioCpu | doaCpu | inta | disCpu | nioMap | disMap => rfl
    all_goals cases hwf

theorem run_ioProtect_protected {s : State} (hp : ioProtected s = true) :
    ioProtect s = .error (.mapFault .io) s := by
  unfold ioProtected at hp
  unfold ioProtect
  rw [run_bind_ok (run_get s), if_pos (by rwa [Bool.and_right_comm]), run_stop]

/-- Every instruction of the I/O format begins with that test. -/
theorem exec_io_protected {i : Instr} (hi : isIo i = true) {s : State} (hp : ioProtected s = true) :
    MapFaults s .io (exec i s) := by
  cases i
  case nio | dia | doa | dib | dob | dic | doc | skp | dis | inten | intds | nioCpu | reads | doaCpu | doapCpu | inta
    | vct | msko | iorst | skpCpu | disCpu | diaMap | doaMap | dobMap | dicMap | docMap | niopMap | nioMap | dibMap
    | disMap | diaTti | doaTto | doaRtc | diaPit | doaPit | doaErcc | diaErcc | dibErcc | diaApl | doaApl =>
    exact mapFaults_of (run_bind_error (run_ioProtect_protected hp))
  case halta => exact mapFaults_of (run_bind_error (run_bind_error (run_ioProtect_protected hp)))
  all_goals cases hi

/-- LMP is protected whatever the LEF mode (47_map R579, R591). -/
theorem exec_lmp_protected {s : State} (hon : s.mapOn = true) (hiop : s.ms.iop = true) :
    MapFaults s .io (exec .lmp s) := by
  refine mapFaults_of (m := lmpStep (pure ())) ?_
  unfold lmpStep
  rw [run_bind_ok (run_get s), if_pos (by rw [hon, hiop]; rfl), run_stop]

/-- Settles O56: the references by their address and operand, the fetch by its two words, and the protected instructions by
the test they begin with. -/
theorem mapFaultsTaken : Obligations.MapFaultsTaken := by
  unfold Obligations.MapFaultsTaken
  intro s ac sa xa i hon refs
  have hshort : ReferencesFault s sa.ind (shortIa s sa) (exec (.lda ac sa) s) (exec (.sta ac sa) s) := by
    rw [exec_lda_eq, exec_sta_eq]
    exact referencesFault hon ac 1 sa.ind (shortIa s sa)
  have hext : ReferencesFault s xa.ind (extIa s xa) (exec (.elda ac xa) s) (exec (.esta ac xa) s) := by
    rw [exec_elda_eq, exec_esta_eq]
    exact referencesFault hon ac 2 xa.ind (extIa s xa)
  refine ⟨hshort, hext, ?_, ?_, ?_⟩
  · intro hrun hx hin htrp hint
    rw [step_eq_runNext hrun hin htrp hint]
    refine ⟨fun hinv => ?_, fun hpc htwo hio hinv hp hsc hq => ?_⟩
    · rw [runNext_mapFault (run_fetchWords_invalid hon hx hinv)]
      exact mapFaults_of (run_stop _ _)
    · rw [runNext_mapFault (run_fetchWords_second_invalid hon hq hx hio hpc htwo hinv)]
      exact mapFaults_of (run_stop _ _) hp hsc hq
  · exact fun hp hsel hfmt => exec_io_protected (isIo_of_ioFormat hsel hfmt) hp
  · exact exec_lmp_protected hon

end Sys2Proof.Laws
end

section
/-!
The I/O instructions in general (46_io R502 to R515): where I/O protection does not apply an instruction is its transfer,
its flag command and the next word. Then the proof of O46, whose devices are external.
-/

namespace Sys2Proof.Laws

open Sys2Proof.Machine

/-! ## Past the protection check (47_map R579) -/

theorem ioGuard_of_not_protected {s : State} (hp : ioProtected s = false) : (s.mapOn && !s.ms.lef && s.ms.iop) = false := by
  unfold ioProtected at hp
  rwa [Bool.and_right_comm] at hp

theorem run_ioProtect_unprotected {s : State} (hp : ioProtected s = false) : ioProtect s = .ok () s :=
  run_ioProtect (ioGuard_of_not_protected hp)

/-- An I/O instruction: its transfer, its command, the next word (46_io R502). -/
theorem runInstr_ioInstr {s t u : State} {transfer command : M Unit} (hp : ioProtected s = false)
    (ht : transfer s = .ok () t) (hc : command t = .ok () u) : runInstr (ioInstr transfer command) s = .next (u.next 1) :=
  runInstr_ok (run_ioInstr (ioGuard_of_not_protected hp) ht hc)

/-! ## The generic instructions (46_io R506 to R515) -/

section
variable {s : State} (hp : ioProtected s = false)
include hp

theorem exec_nio {ac : AcNo} {f : IoFlag} {d : DevCode} {u : State} (hflag : flagCommand f d s = .ok () u) :
    exec (.nio ac f d) s = .next (u.next 1) :=
  runInstr_ioInstr hp (run_pure () s) hflag

/-- DIA, DIB or DIC, by what its buffer delivers. -/
theorem runInstr_dataIn {buf : OutBuffer} {ac : AcNo} {f : IoFlag} {d : DevCode} {v : Word} {t u : State}
    (hread : readBuffer buf d s = .ok v t) (hflag : flagCommand f d (t.withAc ac v) = .ok () u) :
    runInstr (ioInstr (dataIn buf ac d) (flagCommand f d)) s = .next (u.next 1) :=
  runInstr_ioInstr hp (run_bind_ok hread) hflag

/-- DOA, DOB or DOC, by what the buffer does with the word. -/
theorem runInstr_dataOut {buf : OutBuffer} {ac : AcNo} {f : IoFlag} {d : DevCode} {t u : State}
    (hwrite : writeBuffer buf d (s.ac.get ac) s = .ok () t) (hflag : flagCommand f d t = .ok () u) :
    runInstr (ioInstr (dataOut buf ac d) (flagCommand f d)) s = .next (u.next 1) :=
  runInstr_ioInstr hp ((run_bind_ok (run_getAc ac s)).trans hwrite) hflag

theorem exec_skp (t : SkipTest) (d : DevCode) :
    exec (.skp t d) s = .next (s.nextSkip 1 (skipTest t (deviceFlags s d).1 (deviceFlags s d).2)) :=
  runInstr_ok (run_bind_ok (run_ioProtect_unprotected hp))

theorem exec_dis (ac : AcNo) (f : IoFlag) (d : DevCode) :
    exec (.dis ac f d) s = .next ((s.withAc ac (statusWord s d)).next 1) :=
  runInstr_ok (run_bind_ok (run_ioProtect_unprotected hp))

end

/-! ## External devices -/

theorem isBoard_eq_false_iff (d : DevCode) : isBoard d = false ↔
    d ≠ devApl ∧ d ≠ devErcc ∧ d ≠ devMap ∧ d ≠ devTti ∧ d ≠ devTto ∧ d ≠ devRtc ∧ d ≠ devPit := by
  simp [isBoard, and_assoc]

/-- The controller at a code after a change of it that keeps its code. -/
theorem find_mapExt (d : DevCode) {g : ExtDevice → ExtDevice} (hg : ∀ x, (g x).code = x.code) (l : List ExtDevice) :
    (mapExt d g l).find? (fun x => decide (x.code = d)) = (l.find? fun x => decide (x.code = d)).map g := by
  induction l with
  | nil => rfl
  | cons x l ih =>
    by_cases hx : x.code = d
    · simp [mapExt, hx, hg]
    · simpa [mapExt, hx] using ih

theorem code_putBuffer (buf : OutBuffer) (v : Word) (x : ExtDevice) : (putBuffer buf v x).code = x.code := by
  cases buf <;> rfl

theorem findExt_withAc (s : State) (i : AcNo) (v : Word) (d : DevCode) : findExt (s.withAc i v) d = findExt s d := rfl

theorem findExt_extPut (s : State) (d : DevCode) (buf : OutBuffer) (v : Word) :
    findExt (s.extPut d buf v) d = (findExt s d).map (putBuffer buf v) :=
  find_mapExt d (code_putBuffer buf v) s.ext

section
variable {d : DevCode} (hb : isBoard d = false)
include hb

theorem flagCommand_external (f : IoFlag) : flagCommand f d = extFlagCommand f d := by
  obtain ⟨-, hercc, -, htti, htto, hrtc, hpit⟩ := (isBoard_eq_false_iff d).mp hb
  unfold flagCommand
  rw [if_neg htti, if_neg htto, if_neg hrtc, if_neg hpit, if_neg hercc, if_neg (by simp [hb])]

/-- A controller that answers takes the command, where there is one (46_io R504). -/
theorem run_flagCommand_answered {s : State} {x : ExtDevice} (hx : findExt s d = some x) (f : IoFlag) :
    flagCommand f d s = .ok () (s.extFlagged d f) := by
  rw [flagCommand_external hb]
  unfold extFlagCommand State.extFlagged
  rw [run_bind_ok (run_get s)]
  split
  · rfl
  · simp only [hx]
    rw [run_bind_ok (run_set _ s), run_emit]

/-- Where none answers a flag command has no effect (46_io R506). -/
theorem run_flagCommand_absent {s : State} (hx : findExt s d = none) (f : IoFlag) : flagCommand f d s = .ok () s := by
  rw [flagCommand_external hb]
  unfold extFlagCommand
  rw [run_bind_ok (run_get s)]
  split
  · rfl
  · simp only [hx]
    rfl

variable (hc : d ≠ devCpu) {s : State}
include hc

theorem isBoard_or_cpu_eq_false : (isBoard d || decide (d = devCpu)) = false := by
  rw [hb, decide_eq_false hc]
  rfl

theorem deviceFlags_answered {x : ExtDevice} (hx : findExt s d = some x) : deviceFlags s d = (x.busy, x.done) := by
  obtain ⟨-, hercc, -, htti, htto, hrtc, hpit⟩ := (isBoard_eq_false_iff d).mp hb
  simp [deviceFlags, hercc, htti, htto, hrtc, hpit, hc, hb, hx]

theorem deviceFlags_absent (hx : findExt s d = none) : deviceFlags s d = (false, false) := by
  obtain ⟨-, hercc, -, htti, htto, hrtc, hpit⟩ := (isBoard_eq_false_iff d).mp hb
  simp [deviceFlags, hercc, htti, htto, hrtc, hpit, hc, hb, hx]

theorem statusWord_answered {x : ExtDevice} (hx : findExt s d = some x) :
    statusWord s d = BitVec.ofBool x.done ++ BitVec.ofBool x.busy ++ x.status := by
  simp [statusWord, statusBits, deviceFlags_answered hb hc hx, hb, hx]

theorem statusWord_absent (hx : findExt s d = none) : statusWord s d = 0o037777 := by
  simp [statusWord, statusBits, deviceFlags_absent hb hc hx, hb, hx]

/-- The word an input buffer of a controller holds (46_io R507 to R509). -/
theorem run_readBuffer_answered {x : ExtDevice} (hx : findExt s d = some x) :
    readBuffer .a d s = .ok x.inA s ∧ readBuffer .b d s = .ok x.inB s ∧ readBuffer .c d s = .ok x.inC s := by
  unfold readBuffer
  simp only [run_bind, run_get, isBoard_or_cpu_eq_false hb hc, hx]
  exact ⟨rfl, rfl, rfl⟩

theorem run_readBuffer_absent (hx : findExt s d = none) (buf : OutBuffer) : readBuffer buf d s = .ok 0o177777 s := by
  unfold readBuffer
  simp only [run_bind, run_get, isBoard_or_cpu_eq_false hb hc, hx]
  rfl

theorem run_writeBuffer_answered {x : ExtDevice} (hx : findExt s d = some x) (buf : OutBuffer) (v : Word) :
    writeBuffer buf d v s = .ok () (s.extPut d buf v) := by
  unfold writeBuffer
  simp only [run_bind, run_get, isBoard_or_cpu_eq_false hb hc, hx]
  rfl

theorem run_writeBuffer_absent (hx : findExt s d = none) (buf : OutBuffer) (v : Word) :
    writeBuffer buf d v s = .ok () s := by
  unfold writeBuffer
  simp only [run_bind, run_get, isBoard_or_cpu_eq_false hb hc, hx]
  rfl

end

/-! ## The obligation -/

section
variable {s : State} (hp : ioProtected s = false) {d : DevCode} (hb : isBoard d = false)
include hp hb

/-- A word read from a controller's buffer, then the flag command. -/
theorem runInstr_dataIn_answered {x : ExtDevice} (hx : findExt s d = some x) {buf : OutBuffer} {v : Word}
    (hread : readBuffer buf d s = .ok v s) (ac : AcNo) (f : IoFlag) :
    runInstr (ioInstr (dataIn buf ac d) (flagCommand f d)) s = .next (((s.withAc ac v).extFlagged d f).next 1) :=
  runInstr_dataIn hp hread (run_flagCommand_answered hb ((findExt_withAc s ac v d).trans hx) f)

variable (hc : d ≠ devCpu)
include hc

/-- A word placed in a controller's buffer, then the flag command. -/
theorem runInstr_dataOut_answered {x : ExtDevice} (hx : findExt s d = some x) (buf : OutBuffer) (ac : AcNo) (f : IoFlag) :
    runInstr (ioInstr (dataOut buf ac d) (flagCommand f d)) s =
      .next (((s.extPut d buf (s.ac.get ac)).extFlagged d f).next 1) :=
  runInstr_dataOut hp (run_writeBuffer_answered hb hc hx buf _)
    (run_flagCommand_answered hb ((findExt_extPut s d buf _).trans (congrArg (Option.map _) hx)) f)

theorem runInstr_dataIn_absent (hx : findExt s d = none) (buf : OutBuffer) (ac : AcNo) (f : IoFlag) :
    runInstr (ioInstr (dataIn buf ac d) (flagCommand f d)) s = .next ((s.withAc ac 0o177777).next 1) :=
  runInstr_dataIn hp (run_readBuffer_absent hb hc hx buf)
    (run_flagCommand_absent hb ((findExt_withAc s ac _ d).trans hx) f)

theorem runInstr_dataOut_absent (hx : findExt s d = none) (buf : OutBuffer) (ac : AcNo) (f : IoFlag) :
    runInstr (ioInstr (dataOut buf ac d) (flagCommand f d)) s = .next (s.next 1) :=
  runInstr_dataOut hp (run_writeBuffer_absent hb hc hx buf _) (run_flagCommand_absent hb hx f)

end

/-- Settles O46: a controller that answers transfers and then takes the command, an absent one reads as all ones and takes
nothing. -/
theorem externalIo : Obligations.ExternalIo := by
  unfold Obligations.ExternalIo
  intro s ac f t d hp hb hc v
  refine ⟨fun x hx => ?_, fun hx => ?_, fun x => ⟨rfl, rfl, rfl, rfl, rfl, rfl, rfl⟩, fun busy done => ⟨rfl, rfl, rfl, rfl⟩⟩
  · obtain ⟨ha, hbuf, hcbuf⟩ := run_readBuffer_answered hb hc hx
    have hout := runInstr_dataOut_answered hp hb hc hx
    refine ⟨exec_nio hp (run_flagCommand_answered hb hx f), runInstr_dataIn_answered hp hb hx ha ac f,
      runInstr_dataIn_answered hp hb hx hbuf ac f, runInstr_dataIn_answered hp hb hx hcbuf ac f,
      hout .a ac f, hout .b ac f, hout .c ac f, ?_, ?_⟩
    · rw [exec_skp hp, deviceFlags_answered hb hc hx]
    · rw [exec_dis hp, statusWord_answered hb hc hx]
  · have hin := runInstr_dataIn_absent hp hb hc hx
    have hout := runInstr_dataOut_absent hp hb hc hx
    refine ⟨exec_nio hp (run_flagCommand_absent hb hx f), hin .a ac f, hin .b ac f, hin .c ac f,
      hout .a ac f, hout .b ac f, hout .c ac f, ?_, ?_⟩
    · rw [exec_skp hp, deviceFlags_absent hb hc hx]
    · rw [exec_dis hp, statusWord_absent hb hc hx]

end Sys2Proof.Laws
end

section
/-!
Proof of O47: the flag command of each device of the processor board, then its instructions as transfer and command.
-/

namespace Sys2Proof.Laws

open Sys2Proof.Machine

/-! ## Flags of the processor board's devices (46_io R545 to R558) -/

/-- The state after the flag command of an instruction to a device of the processor board. -/
def boardFlagged (f : IoFlag) (d : DevCode) (s : State) : State :=
  if d = devTti then { s with tti := ttiCommand f s.tti }
  else if d = devTto then { s with tto := ttoCommand f s.tto }
  else if d = devRtc then { s with rtc := rtcCommand f s.rtc }
  else if d = devPit then { s with pit := pitCommand f s.pit }
  else if d = devErcc then { s with ercc := erccCommand f s.ercc }
  else s

theorem run_flagCommand_board {d : DevCode} (hd : isBoard d = true) (f : IoFlag) (s : State) :
    flagCommand f d s = .ok () (boardFlagged f d s) := by
  unfold flagCommand boardFlagged
  rw [if_pos hd]
  split_ifs <;> rfl

/-- No rule describes a generic read of a board device's buffer: it delivers any value (log 34). -/
theorem run_readBuffer_board {d : DevCode} (hd : isBoard d = true) (buf : OutBuffer) (s : State) :
    readBuffer buf d s = .ok ((Config.free64 s.freeIdx).setWidth 16) { s with freeIdx := s.freeIdx + 1 } := by
  unfold readBuffer
  rw [run_bind_ok (run_get s), hd, Bool.true_or, if_pos rfl, run_drawFree]

/-- Nor of a write to one: it takes nothing (log 34). -/
theorem run_writeBuffer_board {d : DevCode} (hd : isBoard d = true) (buf : OutBuffer) (v : Word) (s : State) :
    writeBuffer buf d v s = .ok () s := by
  unfold writeBuffer
  rw [run_bind_ok (run_get s), hd, Bool.true_or, if_pos rfl, run_pure]

theorem statusWord_board {d : DevCode} (hd : isBoard d = true) (s : State) :
    statusWord s d = BitVec.ofBool (deviceFlags s d).2 ++ BitVec.ofBool (deviceFlags s d).1 ++ (0x3FFF : BitVec 14) := by
  unfold statusWord statusBits
  rw [if_pos hd]
  rfl

/-- The devices of the board with the Busy and the Done of each (46_io R545 to R558, 47_map R570). -/
theorem deviceFlags_board {s : State} {d : DevCode} {busy done : Bool}
    (hd : (d, busy, done) ∈ [(devTti, s.tti.busy, s.tti.done), (devTto, s.tto.busy, s.tto.done),
      (devRtc, s.rtc.busy, s.rtc.done), (devPit, s.pit.busy, s.pit.done), (devErcc, false, s.ercc.done),
      (devMap, false, false), (devApl, false, false)]) : isBoard d = true ∧ deviceFlags s d = (busy, done) := by
  simp only [List.mem_cons, List.not_mem_nil, or_false, Prod.mk.injEq] at hd
  rcases hd with ⟨rfl, rfl, rfl⟩ | ⟨rfl, rfl, rfl⟩ | ⟨rfl, rfl, rfl⟩ | ⟨rfl, rfl, rfl⟩ | ⟨rfl, rfl, rfl⟩ |
    ⟨rfl, rfl, rfl⟩ | ⟨rfl, rfl, rfl⟩ <;> exact ⟨rfl, rfl⟩

/-! ## The transfers of the board's devices -/

section
variable {s : State} (hp : ioProtected s = false) (ac : AcNo) (f : IoFlag)
include hp

theorem exec_diaTti : exec (.diaTti ac f) s =
    .next (State.next { s.withAc ac (s.tti.rbuf.setWidth 16) with tti := ttiCommand f s.tti } 1) :=
  runInstr_ioInstr hp (run_bind_ok (run_get s)) (run_flagCommand_board rfl f _)

/-- With Start the character goes out (46_io R548; log 43). -/
theorem exec_doaTto : exec (.doaTto ac f) s = .next (State.next { s with
    tto := ttoCommand f { s.tto with tbuf := lowByte (s.ac.get ac) }
    outputs := if f = .start then .ttoChar (lowByte (s.ac.get ac)) :: s.outputs else s.outputs } 1) := by
  have hsend : ∀ t : State, (if f = .start then emit (.ttoChar (lowByte (s.ac.get ac))) else pure () : M Unit) t =
      .ok () { t with outputs := if f = .start then .ttoChar (lowByte (s.ac.get ac)) :: t.outputs else t.outputs } := by
    intro t
    split <;> rfl
  exact runInstr_ioInstr hp
    ((run_bind_ok (run_getAc ac s)).trans ((run_bind_ok (run_modify _ s)).trans (hsend _)))
    (run_flagCommand_board rfl f _)

theorem exec_doaRtc : exec (.doaRtc ac f) s =
    .next (State.next { s with rtc := rtcCommand f { s.rtc with fs := (s.ac.get ac).setWidth 2 } } 1) :=
  runInstr_ioInstr hp (run_bind_ok (run_getAc ac s)) (run_flagCommand_board rfl f _)

theorem exec_diaPit : exec (.diaPit ac f) s =
    .next (State.next { s.withAc ac s.pit.cnt with pit := pitCommand f s.pit } 1) :=
  runInstr_ioInstr hp (run_bind_ok (run_get s)) (run_flagCommand_board rfl f _)

theorem exec_doaPit : exec (.doaPit ac f) s =
    .next (State.next { s with pit := pitCommand f { s.pit with icr := s.ac.get ac } } 1) :=
  runInstr_ioInstr hp (run_bind_ok (run_getAc ac s)) (run_flagCommand_board rfl f _)

theorem exec_doaErcc : exec (.doaErcc ac f) s =
    .next (State.next { s with ercc := erccCommand f { s.ercc with mode := (s.ac.get ac).setWidth 3 } } 1) :=
  runInstr_ioInstr hp (run_bind_ok (run_getAc ac s)) (run_flagCommand_board rfl f _)

theorem exec_diaApl : exec (.diaApl ac f) s = .next (State.next
    { s.withAc ac (aplWord s.cfg ((Config.free64 s.freeIdx).setWidth 7)) with freeIdx := s.freeIdx + 1 } 1) :=
  runInstr_ioInstr hp ((run_bind_ok (run_get s)).trans (run_bind_ok (run_drawFree 7 s))) (run_flagCommand_board rfl f _)

theorem exec_doaApl : exec (.doaApl ac f) s =
    .next (State.next { s with runLight := (s.ac.get ac).getLsbD 0 } 1) :=
  runInstr_ioInstr hp (run_bind_ok (run_getAc ac s)) (run_flagCommand_board rfl f _)

/-! ## The registers of ERCC (46_io R556, R557) -/

/-- DIA ERCC, by the fault address it finds. -/
theorem exec_diaErcc {a : BitVec 20} {t : State} (ha : erccAddr s = .ok a t) : exec (.diaErcc ac f) s =
    .next (State.next { t.withAc ac (a.setWidth 16) with ercc := erccCommand f t.ercc } 1) :=
  runInstr_ioInstr hp (run_bind_ok ha) (run_flagCommand_board rfl f _)

/-- DIB ERCC, by the fault code and the fault address it finds. -/
theorem exec_dibErcc {c : BitVec 6} {a : BitVec 20} {t u : State} (hc : erccCode s = .ok c t) (ha : erccAddr t = .ok a u) :
    exec (.dibErcc ac f) s = .next (State.next
      { u.withAc ac (c ++ (0 : BitVec 6) ++ a.extractLsb' 16 4) with ercc := erccCommand f u.ercc } 1) :=
  runInstr_ioInstr hp ((run_bind_ok hc).trans (run_bind_ok ha)) (run_flagCommand_board rfl f _)

end

section
variable {s : State}

theorem run_erccAddr_done (h : s.ercc.done = true) : erccAddr s = .ok s.ercc.faultAddr s := by
  unfold erccAddr
  rw [run_bind_ok (run_get s), if_pos h, run_pure]

theorem run_erccCode_done (h : s.ercc.done = true) : erccCode s = .ok s.ercc.faultCode s := by
  unfold erccCode
  rw [run_bind_ok (run_get s), if_pos h, run_pure]

/-- With no error outstanding the fault address is any value (93_implementation_defined U33). -/
theorem run_erccAddr_free (h : s.ercc.done = false) :
    erccAddr s = .ok ((Config.free64 s.freeIdx).setWidth 20) { s with freeIdx := s.freeIdx + 1 } := by
  unfold erccAddr
  rw [run_bind_ok (run_get s), if_neg (by simp [h]), run_drawFree]

theorem run_erccCode_free (h : s.ercc.done = false) :
    erccCode s = .ok ((Config.free64 s.freeIdx).setWidth 6) { s with freeIdx := s.freeIdx + 1 } := by
  unfold erccCode
  rw [run_bind_ok (run_get s), if_neg (by simp [h]), run_drawFree]

end

/-- Bits 6 to 11 of the word DIB ERCC delivers are zero (46_io R557). -/
theorem dibErcc_reserved (c : BitVec 6) (a : BitVec 4) : (c ++ (0 : BitVec 6) ++ a : Word) &&& 0x03F0 = 0 := by
  have hmask : (0x03F0 : Word) = (0 : BitVec 6) ++ (0x3F : BitVec 6) ++ (0 : BitVec 4) := rfl
  rw [hmask, BitVec.and_append, BitVec.and_append]
  simp

/-! ## The obligation -/

/-- Settles O47: the described transfers one by one, ERCC by what its registers deliver, and the rest by what every device of
the board has in common. -/
theorem boardDevices : Obligations.BoardDevices := by
  unfold Obligations.BoardDevices
  intro s ac f hp v ercc
  have hnio : ∀ d, isBoard d = true → exec (.nio ac f d) s = .next ((boardFlagged f d s).next 1) :=
    fun d hd => exec_nio hp (run_flagCommand_board hd f s)
  refine ⟨exec_diaTti hp ac f, exec_doaTto hp ac f, ?_, exec_diaPit hp ac f, exec_doaPit hp ac f, ?_,
    fun hdone => ⟨?_, ?_⟩, fun hdone => ⟨⟨_, exec_diaErcc hp ac f (run_erccAddr_free hdone)⟩, ?_⟩,
    ⟨_, exec_diaApl hp ac f⟩, exec_doaApl hp ac f,
    hnio _ rfl, hnio _ rfl, hnio _ rfl, hnio _ rfl, hnio _ rfl, hnio _ rfl,
    fun t d busy done hd => ?_, fun d hd => ?_, ?_, ?_, ?_, ?_, ?_⟩
  · rw [exec_doaRtc hp, BitVec.setWidth_eq_extractLsb' (by decide)]
  · rw [exec_doaErcc hp, BitVec.setWidth_eq_extractLsb' (by decide)]
  · rw [exec_diaErcc hp ac f (run_erccAddr_done hdone), BitVec.setWidth_eq_extractLsb' (by decide)]
    rfl
  · exact exec_dibErcc hp ac f (run_erccCode_done hdone) (run_erccAddr_done hdone)
  · exact ⟨_, dibErcc_reserved _ _, exec_dibErcc hp ac f (run_erccCode_free hdone) (run_erccAddr_free hdone)⟩
  · obtain ⟨hboard, hflags⟩ := deviceFlags_board hd
    refine ⟨?_, fun _ => ?_⟩
    · rw [exec_skp hp, hflags]
    · rw [exec_dis hp, statusWord_board hboard, hflags]
  · have hboard : isBoard d = true := by
      revert hd d
      decide
    have hread := fun buf => runInstr_dataIn (ac := ac) hp (run_readBuffer_board hboard buf s)
      (run_flagCommand_board hboard f _)
    have hwrite := fun buf =>
      runInstr_dataOut (ac := ac) hp (run_writeBuffer_board hboard buf _ s) (run_flagCommand_board hboard f s)
    exact ⟨fun _ => ⟨_, hread .a⟩, fun _ => ⟨_, hread .b⟩, fun _ => ⟨_, hread .c⟩,
      fun _ => hwrite .a, fun _ => hwrite .b, fun _ => hwrite .c⟩
  all_goals exact fun x => ⟨rfl, rfl, rfl, rfl⟩

end Sys2Proof.Laws
end

section
/-!
Proofs of O49, O50 and O53: the CPU device, the I/O reset, and the device instructions of the MAP.
-/

namespace Sys2Proof.Laws

open Sys2Proof.Machine

/-! ## The CPU device (46_io R520 to R531) -/

@[simp] theorem run_cpuFlag (f : IoFlag) (s : State) : cpuFlag f s = .ok () (cpuCommand f s) := rfl

theorem cpuCommand_eq_ite (f : IoFlag) (s : State) : cpuCommand f s =
    if f = .start then { s with ion := true, ionHold := if s.ion then s.ionHold else .held }
    else if f = .clear then { s with ion := false }
    else if f = .pulse then { s with con := ⟨false, false, false, false, false, false⟩ }
    else s := by
  cases f <;> rfl

section
variable {s : State} (hp : ioProtected s = false) (ac : AcNo)
include hp

/-- An instruction of the CPU device: its transfer, then f (46_io R520). -/
theorem runInstr_cpuFlag (f : IoFlag) {t : State} {transfer : M Unit} (ht : transfer s = .ok () t) :
    runInstr (ioInstr transfer (cpuFlag f)) s = .next ((cpuCommand f t).next 1) :=
  runInstr_ioInstr hp ht (run_cpuFlag f t)

theorem exec_doapCpu (hbit : (s.ac.get ac).getLsbD 0 = false) :
    exec (.doapCpu ac) s = .next ((cpuCommand .pulse s).next 1) := by
  refine runInstr_cpuFlag hp .pulse ?_
  rw [run_bind_ok (run_getAc ac s), hbit]
  rfl

/-- The diagnostic bit is refused (46_io R530; log 21). -/
theorem exec_doapCpu_refused (hbit : (s.ac.get ac).getLsbD 0 = true) :
    exec (.doapCpu ac) s = .refused .doapDiagnosticBit := by
  have hstop : ioInstr (do
      let v ← getAc ac
      if v.getLsbD 0 then stop (.refusal .doapDiagnosticBit) else pure ()) (cpuFlag .pulse) s =
        .error (.refusal .doapDiagnosticBit) s := by
    unfold ioInstr
    rw [run_bind_ok (run_ioProtect_unprotected hp)]
    refine run_bind_error ?_
    rw [run_bind_ok (run_getAc ac s), if_pos hbit, run_stop]
  change execDoapCpu ac s = _
  unfold execDoapCpu runInstr
  rw [hstop]
  rfl

/-- HALTA halts after f and the program counter (46_io R527). -/
theorem exec_halta (f : IoFlag) : exec (.halta ac f) s = .next (haltWith ((cpuCommand f s).next 1)) :=
  runInstr_ok <| run_bind_ok <| run_ioInstr (ioGuard_of_not_protected hp) (run_pure () s) (run_cpuFlag f s)

theorem exec_skpCpu (t : SkipTest) : exec (.skpCpu t) s = .next (s.nextSkip 1 (skipTest t s.ion s.pf)) :=
  runInstr_ok (run_bind_ok (run_ioProtect_unprotected hp))

theorem exec_disCpu (f : IoFlag) : exec (.disCpu ac f) s = .next (State.next
    { s.withAc ac (cpuStat s ((Config.free64 s.freeIdx).setWidth 1) ((Config.free64 (s.freeIdx + 1)).setWidth 1)) with
      freeIdx := s.freeIdx + 2 } 1) :=
  runInstr_ok (run_bind_ok (run_ioProtect_unprotected hp))

end

/-- The codes of the memory sizes (46_io R529); for three boards any of the listed ones (log 40). -/
theorem memType_three : Config.MemBoards.three.memType ∈ ([1, 2, 3] : List (BitVec 2)) := by
  have hall : ∀ k : Fin 3, BitVec.ofNat 2 (k.val + 1) ∈ ([1, 2, 3] : List (BitVec 2)) := by decide
  exact hall Config.memTypeThree

/-- The fields of the status word that are any value, or a code (46_io R529). -/
theorem cpuStat_fields (s : State) (b9 b14 : BitVec 1) :
    (cpuStat s b9 b14).extractLsb' 6 1 = b9 ∧ (cpuStat s b9 b14).extractLsb' 1 1 = b14 ∧
    (cpuStat s b9 b14).extractLsb' 2 2 = s.cfg.boards.memType := by
  have hupper : ∀ k n, 1 ≤ k → (cpuStat s b9 b14).extractLsb' k n = _ :=
    fun k n => BitVec.extractLsb'_append_eq_of_le
  simp (disch := decide) only [hupper, BitVec.extractLsb'_append_eq_of_le]
  exact ⟨BitVec.extractLsb'_append_eq_right, BitVec.extractLsb'_append_eq_right, BitVec.extractLsb'_append_eq_right⟩

/-- The status word bit by bit (46_io R529). -/
theorem cpuStat_bits (s : State) (b9 b14 : BitVec 1) :
    let w := cpuStat s b9 b14
    (w.getMsbD 0, w.getMsbD 1, w.getMsbD 2, w.getMsbD 3) = (s.pf, s.ion, true, s.con.brk) ∧
    (w.getMsbD 4, w.getMsbD 5, w.getMsbD 6, w.getMsbD 7) = (s.con.pup, s.con.hlt, s.cfg.haltDispatch, irq s) ∧
    (w.getMsbD 8, w.getMsbD 10, w.getMsbD 11, w.getMsbD 15) = (s.con.pl, s.con.trp, s.survived, s.con.dg) := by
  have hbit : ∀ k, (cpuStat s b9 b14).getMsbD k = _ := fun k => BitVec.getMsbD_append
  simp only [hbit, BitVec.getMsbD_append]
  simp

/-- Settles O49: f after the transfer of each instruction, and the status word field by field. -/
theorem cpuDevice : Obligations.CpuDevice := by
  unfold Obligations.CpuDevice
  intro s ac f t hp v start clear pulse flag
  have hflag : ∀ u, cpuCommand f u = flag u := cpuCommand_eq_ite f
  simp only [← hflag]
  refine ⟨runInstr_cpuFlag hp .start (run_pure () s), runInstr_cpuFlag hp .clear (run_pure () s),
    runInstr_cpuFlag hp f (run_pure () s), runInstr_cpuFlag hp f (run_bind_ok (run_get s)),
    runInstr_cpuFlag hp f (run_pure () s), exec_doapCpu hp ac, exec_doapCpu_refused hp ac,
    runInstr_cpuFlag hp f (run_bind_ok (run_get s)), runInstr_cpuFlag hp f (run_bind_ok (run_getAc ac s)),
    runInstr_cpuFlag hp f (run_modify _ s), exec_halta hp ac f, exec_skpCpu hp t, ⟨_, _, exec_disCpu hp ac f⟩,
    fun b9 b14 => ?_, fun h => ?_, fun h => ?_⟩
  · obtain ⟨hfirst, hsecond, hrest⟩ := cpuStat_bits s b9 b14
    obtain ⟨h9, h14, hmem⟩ := cpuStat_fields s b9 b14
    obtain ⟨h8, h10, h11, h15⟩ : _ ∧ _ ∧ _ ∧ _ := by simpa only [Prod.mk.injEq] using hrest
    rw [hmem]
    refine ⟨hfirst, hsecond, by rw [h8, h9, h10, h11], by rw [h14, h15],
      fun hb => ?_, fun hb => ?_, fun hb => ?_, fun hb => ?_⟩
    case refine_4 => rw [hb]; exact memType_three
    all_goals rw [hb]; rfl
  · unfold haltWith
    rw [if_neg (by simp [h])]
  · unfold haltWith
    rw [if_pos h]
    rfl

/-! ## The I/O reset (46_io R526) -/

/-- The reset clears ERCC's mode bits 14 and 15, and so its interrupts (46_io R554). -/
theorem ioReset_erccMode (s : State) : (ioReset s).ercc.mode.extractLsb' 0 2 = 0 := by
  have hmask : ∀ m : BitVec 3, (m &&& 4).extractLsb' 0 2 = 0 := by decide
  exact hmask s.ercc.mode

theorem ioReset_ext {s : State} {x : ExtDevice} (hx : x ∈ (ioReset s).ext) : x.busy = false ∧ x.done = false := by
  obtain ⟨y, -, rfl⟩ := List.mem_map.mp hx
  exact ⟨rfl, rfl⟩

/-- Settles O50: every field but ERCC's mode and the controllers' flags is written, or left, as it stands in `ioReset`. -/
theorem ioResetEffect : Obligations.IoResetEffect := by
  unfold Obligations.IoResetEffect
  intro s t
  exact ⟨rfl, rfl, rfl, rfl, rfl, rfl, erccEnabled_of_not_checks (erccChecks_of_mode_zero (ioReset_erccMode s)),
    fun _ => ioReset_ext, rfl, rfl, rfl, rfl, rfl, rfl, rfl, rfl, rfl, rfl, rfl, rfl, rfl, rfl, rfl, rfl, rfl, rfl, rfl,
    rfl, rfl⟩

/-! ## The MAP's device instructions (47_map R593 to R599) -/

theorem run_mapFlag (f : IoFlag) (s : State) : mapFlag f s = .ok () (s.mapFlagged f) := by
  cases f <;> rfl

/-- An instruction of the MAP: its transfer, then P where f is P (47_map R598, R599). -/
theorem runInstr_mapFlag {s t : State} (hp : ioProtected s = false) (f : IoFlag) {transfer : M Unit}
    (ht : transfer s = .ok () t) : runInstr (ioInstr transfer (mapFlag f)) s = .next ((t.mapFlagged f).next 1) :=
  runInstr_ioInstr hp ht (run_mapFlag f t)

theorem exec_disMap {s : State} (hp : ioProtected s = false) (ac : AcNo) (f : IoFlag) : exec (.disMap ac f) s =
    .next (State.next { s.withAc ac ((Config.free64 s.freeIdx).setWidth 16) with freeIdx := s.freeIdx + 1 } 1) :=
  runInstr_ok (run_bind_ok (run_ioProtect_unprotected hp))

/-- The word DIA MAP delivers, bit by bit (47_map R594). -/
theorem statusImage_bits (s : State) :
    let w := statusImage s
    (w.getMsbD 0, w.getMsbD 1, w.getMsbD 2, w.getMsbD 3, w.getMsbD 4, w.getMsbD 5) =
      (s.ms.nme.getLsbD 1, s.mapOn, s.ms.fIo, s.ms.fWp, s.ms.fInd, s.ms.sc) ∧
    (w.getMsbD 9, w.getMsbD 10, w.getMsbD 11, w.getMsbD 12) = (s.ms.lef, s.ms.iop, s.ms.wpe, s.ms.indp) ∧
    (w.getMsbD 13, w.getMsbD 14, w.getMsbD 15) = (s.ms.nme.getLsbD 0, s.ms.dch, s.ms.um) := by
  have hbit : ∀ k, (statusImage s).getMsbD k = _ := fun k => BitVec.getMsbD_append
  simp only [hbit, BitVec.getMsbD_append]
  simp [BitVec.msb_eq_getLsbD_last]

theorem statusImage_mapsel (s : State) : (statusImage s).extractLsb' 7 3 = s.ms.mapsel := by
  have hupper : (statusImage s).extractLsb' 7 3 = _ := BitVec.extractLsb'_append_eq_of_le (by decide)
  simp (disch := decide) only [hupper, BitVec.extractLsb'_append_eq_of_le]
  exact BitVec.extractLsb'_append_eq_right

/-- Bits 0 and 13 of the word DOA MAP loads select the user map (47_map R593). -/
theorem loadStatus_nme (m : MapStatus) (v : Word) :
    ((loadStatus m v).nme.getLsbD 1, (loadStatus m v).nme.getLsbD 0) = (v.getMsbD 0, v.getMsbD 13) := by
  have hjoin : ∀ b c : Bool, ((BitVec.ofBool b ++ BitVec.ofBool c : BitVec 2).getLsbD 1,
      (BitVec.ofBool b ++ BitVec.ofBool c : BitVec 2).getLsbD 0) = (b, c) := by decide
  exact hjoin _ _

/-- Settles O53: each transfer, the flag command after it, and the words bit by bit. -/
theorem mapDevice : Obligations.MapDevice := by
  unfold Obligations.MapDevice
  intro s ac f hp v e w m
  have hgetAc := run_getAc ac s
  obtain ⟨hbits, hmodes, hlast⟩ := statusImage_bits s
  refine ⟨runInstr_mapFlag hp f (run_bind_ok (run_get s)), ?_, ?_, runInstr_mapFlag hp f (run_bind_ok (run_get s)),
    runInstr_mapFlag hp f (run_bind_ok hgetAc), runInstr_mapFlag hp .pulse (run_pure () s), fun hf => ?_,
    ⟨_, runInstr_mapFlag hp f (run_bind_ok (run_drawFree 16 s))⟩, ⟨_, exec_disMap hp ac f⟩,
    ⟨hbits, statusImage_mapsel s, hmodes, hlast⟩,
    ⟨loadStatus_nme s.ms v, rfl, rfl, rfl, rfl⟩, fun p => rfl⟩
  · exact runInstr_mapFlag hp f (run_bind_ok hgetAc)
  · rw [← BitVec.setWidth_eq_extractLsb' (by decide)]
    exact runInstr_mapFlag hp f (run_bind_ok hgetAc)
  · have hnone : s.mapFlagged f = s := if_neg hf
    have hrun := runInstr_mapFlag hp f (run_pure () s)
    rwa [hnone] at hrun

end Sys2Proof.Laws
end

section
/-!
Proof of O52. The parts of VCT, the stack change, the return block and the entry into the handler, each leave a state of
supervisor mode; what is left is how an instruction that pushed ends.
-/

namespace Sys2Proof.Laws

open Sys2Proof.Machine

/-! ## The parts of VCT (46_io R542, R543) -/

theorem pushedAll_ion : ∀ (ws : List Word) (s : State), (s.pushedAll ws).ion = s.ion
  | [], _ => rfl
  | w :: ws, s => pushedAll_ion ws (s.pushed w)

theorem pushedAll_ionHold : ∀ (ws : List Word) (s : State), (s.pushedAll ws).ionHold = s.ionHold
  | [], _ => rfl
  | w :: ws, s => pushedAll_ionHold ws (s.pushed w)

/-- After the vector stack replaces the user's: its pointer, limit and fault address from locations 4, 6 and 7, the user's
four control words pushed on it. -/
def vectorStacked (s : State) : State :=
  (((s.withWord spLoc (s.wordAt 4)).withWord slLoc (s.wordAt 6)).withWord sfaLoc (s.wordAt 7)).pushedAll
    [s.wordAt spLoc, s.wordAt fpLoc, s.wordAt slLoc, s.wordAt sfaLoc]

/-- After a return block of these accumulators and this carry, with the interrupted program counter of location 0. -/
def vectorBlockPushed (s : State) (q : Quad Word) (c : Bool) : State :=
  let acs := s.pushedAll [q.get 0, q.get 1, q.get 2, q.get 3]
  acs.pushed (joinWord c ((acs.wordAt 0).setWidth 15))

theorem vectorBlockPushed_ion (s : State) (q : Quad Word) (c : Bool) : (vectorBlockPushed s q c).ion = s.ion := by
  unfold vectorBlockPushed
  rw [pushed_ion, pushedAll_ion]

theorem vectorBlockPushed_ionHold (s : State) (q : Quad Word) (c : Bool) :
    (vectorBlockPushed s q c).ionHold = s.ionHold := by
  unfold vectorBlockPushed
  rw [pushed_ionHold, pushedAll_ionHold]

/-- Interrupts on with this hold, a new mask in force. -/
def interruptsOn (s : State) (mask : Word) (hold : IonHold) : State :=
  { s with mask := mask, ion := true, ionHold := hold }

/-- After the mask of location 5 is saved and the new one in force and there, interrupts on. -/
def vectorEntered (s : State) (bits : Word) (hold : IonHold) : State :=
  interruptsOn ((s.pushed (s.wordAt 5)).withWord 5 (s.wordAt 5 ||| bits)) (s.wordAt 5 ||| bits) hold

section
variable {s : State} (h : Supervisor s)
include h

/-- The control words of the vector stack are read from locations the stack change does not write. -/
theorem run_vctNewStack : vctNewStack s = .ok () (vectorStacked s) := by
  have h1 := supervisor_withWord h spLoc (s.wordAt 4)
  have h2 := supervisor_withWord h1 slLoc (s.wordAt 6)
  have h3 := supervisor_withWord h2 sfaLoc (s.wordAt 7)
  have h6 : (s.withWord spLoc (s.wordAt 4)).wordAt 6 = s.wordAt 6 := wordAt_withWord_other s _ (by decide)
  have h7 : ((s.withWord spLoc (s.wordAt 4)).withWord slLoc (s.wordAt 6)).wordAt 7 = s.wordAt 7 :=
    (wordAt_withWord_other _ _ (by decide)).trans (wordAt_withWord_other s _ (by decide))
  have h4 := supervisor_pushed h3 (s.wordAt spLoc)
  have h5 := supervisor_pushed h4 (s.wordAt fpLoc)
  unfold vctNewStack
  rw [run_bind_ok (run_memRead h _), run_bind_ok (run_memRead h _), run_bind_ok (run_memRead h _),
    run_bind_ok (run_memRead h _), run_bind_ok (run_memRead h _), run_bind_ok (run_memWrite h _ _),
    run_bind_ok (run_memRead h1 6), h6, run_bind_ok (run_memWrite h1 _ _), run_bind_ok (run_memRead h2 7), h7,
    run_bind_ok (run_memWrite h2 _ _), run_bind_ok (run_push h3 _), run_bind_ok (run_push h4 _),
    run_bind_ok (run_push h5 _), run_push (supervisor_pushed h5 _)]
  rfl

theorem supervisor_vectorStacked : Supervisor (vectorStacked s) :=
  supervisor_pushedAll (supervisor_withWord (supervisor_withWord (supervisor_withWord h _ _) _ _) _ _) _

theorem run_vctBlock {q : Quad Word} {c : Bool} (hac : s.ac = q) (hcry : s.cry = c) :
    vctBlock s = .ok () (vectorBlockPushed s q c) := by
  subst hac hcry
  have h1 := supervisor_pushed h (s.ac.get 0)
  have h2 := supervisor_pushed h1 (s.ac.get 1)
  have h3 := supervisor_pushed h2 (s.ac.get 2)
  have h4 := supervisor_pushed h3 (s.ac.get 3)
  unfold vctBlock
  rw [run_bind_ok (run_pushAc h 0 rfl), run_bind_ok (run_pushAc h1 1 (v := s.ac.get 1) (by simp)),
    run_bind_ok (run_pushAc h2 2 (v := s.ac.get 2) (by simp)),
    run_bind_ok (run_pushAc h3 3 (v := s.ac.get 3) (by simp)), run_bind_ok (run_memRead h4 0), run_bind_ok (run_get _)]
  simp only [pushed_cry]
  rw [run_push h4]
  rfl

theorem supervisor_vectorBlockPushed (q : Quad Word) (c : Bool) : Supervisor (vectorBlockPushed s q c) :=
  supervisor_pushed (supervisor_pushedAll h _) _

/-- The entry comes down to the stack check, with the handler. -/
theorem run_vctEnter (bits : Word) (handler : Addr) {hold : IonHold}
    (hhold : (if s.ion then s.ionHold else .held) = hold) :
    vctEnter bits handler s = finishAt handler (vectorEntered s bits hold) := by
  subst hhold
  have hp := supervisor_pushed h (s.wordAt 5)
  unfold vctEnter
  rw [run_bind_ok (run_memRead h 5), run_bind_ok (run_push h _), run_bind_ok (run_memWrite hp 5 _),
    run_bind_ok (run_modify _ _), run_bind_ok (run_cpuFlag .start _)]
  rfl

theorem supervisor_interruptsOn (mask : Word) (hold : IonHold) : Supervisor (interruptsOn s mask hold) := h

theorem supervisor_vectorEntered (bits : Word) (hold : IonHold) : Supervisor (vectorEntered s bits hold) :=
  supervisor_interruptsOn (supervisor_withWord (supervisor_pushed h _) _ _) _ _

end

/-! ## The instruction (46_io R540, R541) -/

/-- A part that is run or not, before a rest that is run in any case. -/
theorem run_optional {c : Bool} {m k : M Unit} {s t : State} (hm : m s = .ok () t) :
    (if c = true then m >>= fun _ => k else k) s = k (if c = true then t else s) := by
  cases c
  · rfl
  · exact run_bind_ok hm

/-- After the console interrupts are cleared, with which VCT begins. -/
def consoleCleared (s : State) : State := { s with con := ⟨false, false, false, false, false, false⟩ }

section
variable (s : State) (change : Bool) (table : Addr)

/-- The entry of the vector table for the device an acknowledge finds. -/
def vectorEntry : Word := s.wordAt (table + (ackCode s).setWidth 15)

/-- After the stack change, where there is one. -/
def afterStackChange : State := if change then vectorStacked (consoleCleared s) else consoleCleared s

/-- After the return block, where bit 0 of the device control table's first word asks for one. -/
def afterVectorBlock : State :=
  if (s.wordAt ((vectorEntry s table).setWidth 15)).msb then
    vectorBlockPushed (afterStackChange s change) s.ac s.cry
  else afterStackChange s change

/-- At the stack check of the entry. -/
def atVectorCheck : State :=
  vectorEntered (afterVectorBlock s change table) (s.wordAt ((vectorEntry s table).setWidth 15 + 1))
    (if s.ion then s.ionHold else .held)

theorem afterStackChange_keeps : (afterStackChange s change).ac = s.ac ∧ (afterStackChange s change).cry = s.cry ∧
    (afterStackChange s change).ion = s.ion ∧ (afterStackChange s change).ionHold = s.ionHold := by
  unfold afterStackChange
  split
  · exact ⟨pushedAll_ac _ _, pushedAll_cry _ _, pushedAll_ion _ _, pushedAll_ionHold _ _⟩
  · exact ⟨rfl, rfl, rfl, rfl⟩

theorem afterVectorBlock_keeps : (afterVectorBlock s change table).ion = s.ion ∧
    (afterVectorBlock s change table).ionHold = s.ionHold := by
  obtain ⟨-, -, hion, hhold⟩ := afterStackChange_keeps s change
  unfold afterVectorBlock
  split
  · exact ⟨(vectorBlockPushed_ion _ _ _).trans hion, (vectorBlockPushed_ionHold _ _ _).trans hhold⟩
  · exact ⟨hion, hhold⟩

end

section
variable {s : State} (h : Supervisor s) (change : Bool) (table : Addr)
include h

theorem supervisor_afterStackChange : Supervisor (afterStackChange s change) := by
  unfold afterStackChange
  split
  · exact supervisor_vectorStacked (s := consoleCleared s) h
  · exact h

theorem supervisor_afterVectorBlock : Supervisor (afterVectorBlock s change table) := by
  unfold afterVectorBlock
  split
  · exact supervisor_vectorBlockPushed (supervisor_afterStackChange h change) _ _
  · exact supervisor_afterStackChange h change

theorem supervisor_atVectorCheck : Supervisor (atVectorCheck s change table) :=
  supervisor_vectorEntered (supervisor_afterVectorBlock h change table) _ _

/-- VCT up to the entry of its table. -/
theorem exec_vct : exec (.vct change table) s = runInstr (do
    if (vectorEntry s table).msb then
      let dct : Addr := (vectorEntry s table).setWidth 15
      let w0 ← memRead dct
      let w1 ← memRead (dct + 1)
      if change then vctNewStack else pure ()
      if w0.msb then vctBlock else pure ()
      vctEnter w1 (w0.setWidth 15)
    else setPc ((vectorEntry s table).setWidth 15)) (consoleCleared s) := by
  have hread : memRead (table + (ackCode s).setWidth 15) (consoleCleared s) =
      .ok (vectorEntry s table) (consoleCleared s) := run_memRead (s := consoleCleared s) h _
  refine runInstr_congr ?_
  rw [run_bind_ok (run_ioProtect_unprotected (supervisor_ioProtected h)), run_bind_ok (run_get s),
    run_bind_ok (run_cpuFlag .pulse s)]
  exact run_bind_ok hread

/-- Mode A: the entry of the table is the handler (46_io R541). -/
theorem exec_vct_direct (hent : (vectorEntry s table).msb = false) :
    exec (.vct change table) s = .next ((consoleCleared s).goto ((vectorEntry s table).setWidth 15)) := by
  rw [exec_vct h, if_neg (by simp [hent])]
  exact runInstr_ok (run_setPc _ _)

/-- Modes B to E come down to the stack check of the entry into the handler. -/
theorem exec_vct_vectored (hent : (vectorEntry s table).msb = true) : exec (.vct change table) s =
    runInstr (finishAt ((s.wordAt ((vectorEntry s table).setWidth 15)).setWidth 15)) (atVectorCheck s change table) := by
  have h0 : Supervisor (consoleCleared s) := h
  have h1 := supervisor_afterStackChange h change
  have h2 := supervisor_afterVectorBlock h change table
  obtain ⟨hac, hcry, -, -⟩ := afterStackChange_keeps s change
  obtain ⟨hion, hhold⟩ := afterVectorBlock_keeps s change table
  rw [exec_vct h, if_pos hent]
  refine runInstr_congr ?_
  rw [run_bind_ok (run_memRead h0 _), run_bind_ok (run_memRead h0 _)]
  exact (run_optional (run_vctNewStack h0)).trans <| (run_optional (run_vctBlock h1 hac hcry)).trans <|
    run_vctEnter h2 _ _ (by rw [hion, hhold])

end

/-- Settles O52: mode A directly, the others by the stack check their parts come down to. -/
theorem vctResult : Obligations.VctResult := by
  unfold Obligations.VctResult
  intro s change table t h s0 ent dct w0 w1 newStack s1 acs s2 m s3
  have hs3 : s3 = atVectorCheck s change table := rfl
  have hcheck := supervisor_atVectorCheck h change table
  rw [hs3]
  refine ⟨exec_vct_direct h change table, fun hent ho => ?_, fun hent ho ht => ?_⟩
  · rw [exec_vct_vectored h change table hent]
    exact runInstr_finishAt_room hcheck ho _
  · rw [exec_vct_vectored h change table hent]
    exact runInstr_finishAt_fault hcheck ho ht

end Sys2Proof.Laws
end

section
/-!
Proofs of O58 and O59. Interrupt entry runs in supervisor mode. The emulator trap runs in user mode: where the user map is the
identity each of its references does what the same reference of supervisor mode does, so that the trap's own lemmas of
supervisor mode say what it leaves.
-/

namespace Sys2Proof.Laws

open Sys2Proof.Machine

/-! ## Interrupts (60_exceptions R623, R626) -/

theorem interruptDue_iff (s : State) : interruptDue s = true ↔
    irq s = true ∧ s.ion = true ∧ s.ionHold = .none ∧ s.mapPending = false ∧ s.scPending = false ∧ s.con.trp = false := by
  simp [interruptDue, and_assoc]

/-- The state in which interrupt entry stores the program counter: ION and the map off, UM the mode interrupted. -/
def interrupted (s : State) : State :=
  { s with ion := false, ms := { s.ms with um := s.mapOn }, mapOn := false, xct := none }

/-- A step at which an interrupt is due takes it. -/
theorem step_interrupt {s : State} (hrun : s.runState = .running) (hin : s.inputs = []) (hdue : interruptDue s = true) :
    step s = runInstr interruptEntry s := by
  calc step s = cpuStep s := by unfold step machineStep; rw [hin]
    _ = runStep s := by unfold cpuStep; rw [hrun]
    _ = runInstr interruptEntry s := by unfold runStep; rw [if_pos hdue]

theorem run_interruptEntry {s : State} {t : Addr} (h : Supervisor (interrupted s))
    (ht : ((interrupted s).withWord 0 (joinWord false s.pc)).pointerEnd 1 = some t) :
    interruptEntry s = .ok () (((interrupted s).withWord 0 (joinWord false s.pc)).goto t) := by
  unfold interruptEntry
  rw [run_bind_ok (run_modify _ s), run_bind_ok (run_get _)]
  refine (run_bind_ok (run_memWrite h 0 _)).trans ?_
  exact run_bind_ok (run_indirectAt (supervisor_withWord h 0 _) ht)

/-- Settles O58: the conditions as they stand in `interruptDue`, two of which make the entry's references those of supervisor
mode. -/
theorem interruptEntry : Obligations.InterruptEntry := by
  unfold Obligations.InterruptEntry
  refine ⟨?_, interruptDue_iff⟩
  intro s t hrun hin hdue hp31 hq u v ht
  obtain ⟨-, -, -, hpending, hcycle, -⟩ := (interruptDue_iff s).mp hdue
  have h : Supervisor (interrupted s) := ⟨rfl, hpending, hcycle, hp31, hq⟩
  refine ⟨?_, sameOutside_withWord u _ (List.mem_singleton_self 0)⟩
  rw [step_interrupt hrun hin hdue]
  exact runInstr_ok (run_interruptEntry h ht)

/-! ## User mode through the identity map -/

/-- The user map in force is the identity, and neither indirect protection nor a single-cycle bit marks a reference. -/
def PlainMap (s : State) : Prop :=
  s.ms.indp = false ∧ s.ms.sc = false ∧ ∀ p : BitVec 5, PageMap.entry (s.umap.get s.ms.nme) p = ⟨false, p.setWidth 10⟩

/-- Supervisor mode, with a user map that would be the identity. -/
def Shadow (s : State) : Prop := Supervisor s ∧ PlainMap s

/-- The state in user mode, page 31 of supervisor mode at `p31`. -/
def inUser (p31 : BitVec 10) (s : State) : State := { s with mapOn := true, p31 := p31 }

/-- Where the map is the identity a logical address is the physical one, in a valid page. -/
theorem entryPhys_identity {s : State} (h : PlainMap s) (a : Addr) : entryPhys (userEntry s a) a = a.toNat := by
  obtain ⟨-, -, hmap⟩ := h
  have ha := a.isLt
  unfold userEntry entryPhys
  rw [hmap, BitVec.toNat_setWidth, logicalPage, BitVec.extractLsb'_toNat, Nat.shiftRight_eq_div_pow, pageOffset]
  omega

theorem valid_identity {s : State} (h : PlainMap s) (a : Addr) : (userEntry s a).invalid = false := by
  obtain ⟨-, -, hmap⟩ := h
  unfold userEntry MapEntry.invalid
  rw [hmap, Bool.false_and]

theorem unprotected_identity {s : State} (h : PlainMap s) (a : Addr) : writeProtected s (userEntry s a) = false := by
  obtain ⟨-, -, hmap⟩ := h
  unfold userEntry writeProtected
  rw [hmap, Bool.and_false]

theorem mapped_identity {s : State} (hon : s.mapOn = true) (h : PlainMap s) (a : Addr) : s.mapped a = true := by
  unfold State.mapped
  rw [hon, valid_identity h, entryPhys_identity h, decide_eq_true (addr_installed s a)]
  rfl

theorem mappedWord_identity {s : State} (h : PlainMap s) (a : Addr) : s.mappedWord a = s.wordAt a := by
  unfold State.mappedWord
  rw [entryPhys_identity h]
  rfl

/-! ## Pieces that do in user mode what they do in supervisor mode -/

/-- In user mode the result `r` of supervisor mode, which stays there. -/
def ShadowResult {α : Type} (p31 : BitVec 10) (r r' : EStateM.Result Stop State α) : Prop :=
  match r with
  | .ok a t => r' = .ok a (inUser p31 t) ∧ Shadow t
  | .error e t => r' = .error e (inUser p31 t)

/-- The piece does in user mode what it does in supervisor mode. -/
def Shadowed {α : Type} (m : M α) : Prop := ∀ p31 s, Shadow s → ShadowResult p31 (m s) (m (inUser p31 s))

section
variable {α β : Type}

theorem Shadowed.bind {m : M α} {f : α → M β} (hm : Shadowed m) (hf : ∀ a, Shadowed (f a)) : Shadowed (m >>= f) := by
  intro p31 s hs
  have hres := hm p31 s hs
  rw [run_bind, run_bind]
  cases hrun : m s with
  | ok a t =>
    rw [hrun] at hres
    obtain ⟨huser, ht⟩ := hres
    rw [huser]
    exact hf a p31 t ht
  | error e t =>
    rw [hrun] at hres
    rw [show m (inUser p31 s) = .error e (inUser p31 t) from hres]
    rfl

theorem Shadowed.ite {c : Prop} [Decidable c] {m k : M α} (hm : Shadowed m) (hk : Shadowed k) :
    Shadowed (if c then m else k) := by
  split
  · exact hm
  · exact hk

theorem shadowed_pure (a : α) : Shadowed (pure a : M α) := fun _ _ hs => ⟨rfl, hs⟩

theorem shadowed_stop (e : Stop) : Shadowed (stop e : M α) := fun _ _ _ => rfl

end

theorem shadowed_getAc (i : AcNo) : Shadowed (getAc i) := fun _ _ hs => ⟨rfl, hs⟩

theorem shadowed_setPc (a : Addr) : Shadowed (setPc a) := fun _ _ hs => ⟨rfl, hs⟩

theorem inUser_referred {s : State} (h : PlainMap s) (p31 : BitVec 10) : (inUser p31 s).referred = inUser p31 s := by
  obtain ⟨-, hsc, -⟩ := h
  have hms : { s.ms with sc := false } = s.ms := by rw [← hsc]
  unfold State.referred inUser
  rw [hms]

theorem shadowed_memRead (a : Addr) : Shadowed (memRead a) := by
  rintro p31 s ⟨hs, hmap⟩
  obtain ⟨-, -, -, -, hq⟩ := id hs
  have huser : PlainMap (inUser p31 s) := hmap
  rw [run_memRead hs, run_memRead_mapped (s := inUser p31 s) hq (mapped_identity rfl huser a),
    mappedWord_identity huser, inUser_referred hmap]
  exact ⟨rfl, hs, hmap⟩

theorem shadowed_memWrite (a : Addr) (v : Word) : Shadowed (memWrite a v) := by
  rintro p31 s ⟨hs, hmap⟩
  obtain ⟨-, -, -, -, hq⟩ := id hs
  have huser : PlainMap (inUser p31 s) := hmap
  rw [run_memWrite hs, run_memWrite_mapped (s := inUser p31 s) hq (mapped_identity rfl huser a)
    (unprotected_identity huser a)]
  refine ⟨?_, supervisor_withWord hs a v, hmap⟩
  unfold State.withMappedWord
  rw [entryPhys_identity huser, inUser_referred hmap]
  rfl

/-- No user enable waits. -/
theorem shadowed_completeEnable : Shadowed completeEnable := by
  rintro p31 s ⟨hs, hmap⟩
  obtain ⟨-, hpending, -⟩ := id hs
  rw [run_completeEnable hs, run_completeEnable_none (s := inUser p31 s) hpending]
  exact ⟨rfl, hs, hmap⟩

/-- Without indirect protection a chain has no limit but the model's. -/
theorem shadowed_chain : ∀ (n level : Nat) (a : Addr), Shadowed (chain memRead n level a)
  | 0, _, _ => shadowed_stop _
  | n + 1, level, a => by
    have hbody : Shadowed (do
        let p ← memRead a
        completeEnable
        if p.msb then chain memRead n (level + 1) (p.setWidth 15) else pure (p.setWidth 15)) :=
      (shadowed_memRead a).bind fun p => shadowed_completeEnable.bind fun _ =>
        .ite (shadowed_chain n (level + 1) _) (shadowed_pure _)
    rintro p31 s ⟨hs, hmap⟩
    obtain ⟨hindp, -⟩ := id hmap
    have hsuper : indirectLimit s level = false := indirectLimit_eq_false (.inr hindp)
    have huser : indirectLimit (inUser p31 s) level = false := indirectLimit_eq_false (.inr hindp)
    unfold chain
    rw [run_bind_ok (run_get _), run_bind_ok (run_get _), hsuper, huser]
    exact hbody p31 s ⟨hs, hmap⟩

theorem shadowed_indirectAt (a : Addr) : Shadowed (indirectAt a) := shadowed_chain Config.chainFuel 0 a

/-! ## The trap through a return block -/

theorem shadowed_push (v : Word) : Shadowed (push v) :=
  (shadowed_memRead _).bind fun _ => (shadowed_memWrite _ _).bind fun _ => shadowed_memWrite _ _

theorem shadowed_pushAc (i : AcNo) : Shadowed (pushAc i) := (shadowed_getAc i).bind shadowed_push

/-- The carry pushed with the program counter value. -/
theorem shadowed_pushReturn (pcval : Addr) : Shadowed (do
    let s ← get
    push (joinWord s.cry pcval)) :=
  fun p31 s hs => shadowed_push (joinWord s.cry pcval) p31 s hs

theorem shadowed_pushBlock (pcval : Addr) : Shadowed (pushBlock pcval) :=
  (shadowed_pushAc 0).bind fun _ => (shadowed_pushAc 1).bind fun _ => (shadowed_pushAc 2).bind fun _ =>
    (shadowed_pushAc 3).bind fun _ => shadowed_pushReturn pcval

theorem shadowed_stackFault (pcval : Addr) : Shadowed (stackFault pcval) :=
  (shadowed_memRead _).bind fun _ => (shadowed_memWrite _ _).bind fun _ => (shadowed_memRead _).bind fun _ =>
    (shadowed_memWrite _ _).bind fun _ => (shadowed_pushBlock pcval).bind fun _ =>
    (shadowed_indirectAt sfaLoc).bind fun _ => shadowed_setPc _

theorem shadowed_finishAt (pcval : Addr) : Shadowed (finishAt pcval) :=
  (shadowed_memRead _).bind fun _ => (shadowed_memRead _).bind fun _ =>
    .ite (shadowed_stackFault pcval) (shadowed_setPc pcval)

theorem shadowed_takeTrap (loc ret : Addr) : Shadowed (takeTrap loc ret) :=
  (shadowed_pushBlock ret).bind fun _ => (shadowed_indirectAt loc).bind fun _ => shadowed_finishAt _

/-- What a piece leaves in supervisor mode it leaves in user mode. -/
theorem Shadowed.run_ok {m : M Unit} (hm : Shadowed m) {s t : State} (hs : Shadow s) (ht : m s = .ok () t)
    (p31 : BitVec 10) : m (inUser p31 s) = .ok () (inUser p31 t) := by
  have hres := hm p31 s hs
  rw [ht] at hres
  exact hres.1

/-! ## What claims read of the state is the same in user mode -/

theorem follow_inUser (p31 : BitVec 10) (s : State) : ∀ (n : Nat) (a : Addr), (inUser p31 s).follow n a = s.follow n a
  | 0, _ => rfl
  | n + 1, a => by
    unfold State.follow
    rw [follow_inUser p31 s n]
    rfl

theorem pointerEnd_inUser (p31 : BitVec 10) (s : State) (a : Addr) : (inUser p31 s).pointerEnd a = s.pointerEnd a :=
  follow_inUser p31 s Config.chainFuel a

theorem wordAt_inUser (p31 : BitVec 10) (s : State) (a : Addr) : (inUser p31 s).wordAt a = s.wordAt a := rfl

theorem withWord_inUser (p31 : BitVec 10) (s : State) (a : Addr) (v : Word) :
    (inUser p31 s).withWord a v = inUser p31 (s.withWord a v) := rfl

theorem goto_inUser (p31 : BitVec 10) (s : State) (a : Addr) : (inUser p31 s).goto a = inUser p31 (s.goto a) := rfl

theorem overflows_inUser (p31 : BitVec 10) (s : State) : (inUser p31 s).overflows = s.overflows := rfl

theorem pushedAll_inUser (p31 : BitVec 10) : ∀ (ws : List Word) (s : State),
    (inUser p31 s).pushedAll ws = inUser p31 (s.pushedAll ws)
  | [], _ => rfl
  | w :: ws, s => pushedAll_inUser p31 ws (s.pushed w)

theorem withBlock_inUser (p31 : BitVec 10) (s : State) (ret : Addr) :
    (inUser p31 s).withBlock ret = inUser p31 (s.withBlock ret) := pushedAll_inUser p31 _ s

theorem stackFaulted_inUser (p31 : BitVec 10) (s : State) (ret : Addr) :
    (inUser p31 s).stackFaulted ret = inUser p31 (s.stackFaulted ret) := by
  simp only [State.stackFaulted, wordAt_inUser, withWord_inUser, withBlock_inUser]

/-- A trap in user mode ends as `TrapEnds` says (60_exceptions R650, R656). -/
theorem trapEnds_inUser {s : State} (hs : Shadow s) {p31 : BitVec 10} {loc ret : Addr}
    {r : Host.Outcome State Fault Refusal} (hr : ∀ u, takeTrap loc ret (inUser p31 s) = .ok () u → r = .next u) :
    TrapEnds ((inUser p31 s).withBlock ret) loc r := by
  obtain ⟨hsuper, -⟩ := id hs
  have hrun {t : State} (ht : takeTrap loc ret s = .ok () t) := hr _ ((shadowed_takeTrap loc ret).run_ok hs ht p31)
  rw [withBlock_inUser]
  intro a ha
  rw [pointerEnd_inUser] at ha
  rw [overflows_inUser, goto_inUser]
  refine ⟨fun ho => hrun (run_takeTrap hsuper ha ho), fun ho t ht => ?_⟩
  rw [stackFaulted_inUser, pointerEnd_inUser] at ht
  rw [stackFaulted_inUser, goto_inUser]
  exact hrun (run_takeTrap_fault hsuper ha ho ht)

/-- The state of supervisor mode an identity-mapped state stands beside. -/
def shadowOf (s : State) : State := { s with mapOn := false, p31 := Config.page31Reset }

theorem inUser_shadowOf {s : State} (hon : s.mapOn = true) : inUser s.p31 (shadowOf s) = s := by
  unfold inUser shadowOf
  rw [← hon]

theorem trapEnds_identity {s : State} (hs : Shadow (shadowOf s)) (hon : s.mapOn = true) {loc ret : Addr}
    {r : Host.Outcome State Fault Refusal} (hr : ∀ u, takeTrap loc ret s = .ok () u → r = .next u) :
    TrapEnds (s.withBlock ret) loc r := by
  have hends := trapEnds_inUser hs (p31 := s.p31) (loc := loc) (ret := ret) (r := r)
  rw [inUser_shadowOf hon] at hends
  exact hends hr

/-! ## Undefined words (60_exceptions R650, R652) -/

theorem wordsOf_undefined {lef : Bool} {w : Word} (h : decodeWords lef w 0 = none) : wordsOf lef w = 1 := by
  unfold wordsOf
  rw [h]

theorem runNext_undefined {s t : State} {w : Word} (hf : fetchWords s = .ok (w, 0) t)
    (hd : decodeWords (lefMode s) w 0 = none) : runNext s = undefinedWord (countHold false t) := by
  unfold runNext
  simp only [hf, hd]

/-- In supervisor mode an undefined word is fetched alone. -/
theorem run_fetchWords_undefined {s : State} (h : Supervisor s) (hx : s.xct = none)
    (hd : decodeWords (lefMode s) (s.wordAt s.pc) 0 = none) : fetchWords s = .ok (s.wordAt s.pc, 0) s := by
  rw [supervisor_lefMode h] at hd
  have hone : operandWord false (s.wordAt s.pc) (s.wordAt (s.pc + 1)) = 0 := by
    unfold operandWord
    rw [wordsOf_undefined hd]
    rfl
  rw [run_fetchWords h hx, hone]

/-- So it is in user mode, whatever protects I/O. -/
theorem run_fetchWords_undefined_mapped {s : State} (hq : Quiet s) (hx : s.xct = none) (hpc : s.mapped s.pc = true)
    (hd : decodeWords (lefMode s) (s.mappedWord s.pc) 0 = none) :
    fetchWords s = .ok (s.mappedWord s.pc, 0) s.referred := by
  have hlef : lefMode s.referred = lefMode s := rfl
  have hsecond : secondWord (s.mappedWord s.pc) s.referred = .ok 0 s.referred := by
    unfold secondWord
    rw [run_bind_ok (run_get _), hlef, wordsOf_undefined hd]
    rfl
  unfold fetchWords
  rw [run_bind_ok (run_firstWord_mapped hq hx hpc), run_bind_ok hsecond, run_pure]

/-- With the map off an undefined word does nothing (60_exceptions R652; log 19). -/
theorem undefinedWord_unmapped {s : State} (hoff : s.mapOn = false) : undefinedWord s = .next (s.next 1) := by
  refine runInstr_ok ?_
  rw [run_bind_ok (run_get s), if_neg (by simp [hoff]), run_advance]

/-- In user mode location 11 decides, by its word `v`, whether there is an emulator trap. -/
theorem undefinedWord_mapped {s : State} (hon : s.mapOn = true) {v : Word} (hv : memRead 0o11 s = .ok v s) :
    undefinedWord s = if v = 0 then .next (s.next 1) else runInstr (takeTrap 0o11 (s.pc + 1)) s := by
  have hrun : undefinedWord s = runInstr (if v = 0 then advance 1 else takeTrap 0o11 (s.pc + 1)) s := by
    refine runInstr_congr ?_
    rw [run_bind_ok (run_get s), if_pos hon, run_bind_ok hv]
  rw [hrun]
  split
  · exact runInstr_ok (run_advance 1 s)
  · rfl

/-- Settles O59: the word is fetched alone, and in user mode the trap runs as it would in supervisor mode. -/
theorem undefinedWords : Obligations.UndefinedWords := by
  unfold Obligations.UndefinedWords
  intro s hrun hx hin htrp hint hd u b
  have hstep := step_eq_runNext hrun hin htrp hint
  have hmapped (h : IdentityMapped s) : u.mapOn = true ∧ Shadow (shadowOf u) ∧ step s =
      if s.wordAt 0o11 = 0 then .next (u.next 1) else runInstr (takeTrap 0o11 (u.pc + 1)) u := by
    obtain ⟨hon, hpending, hcycle, hindp, hq, hmap⟩ := h
    have hplain : PlainMap u := ⟨hindp, rfl, hmap⟩
    have hpc : s.mapped s.pc = true := mapped_identity (s := u) hon hplain s.pc
    have hword : s.mappedWord s.pc = s.wordAt s.pc := mappedWord_identity hplain s.pc
    have hd' : decodeWords (lefMode s) (s.mappedWord s.pc) 0 = none := by rwa [hword]
    have hread : memRead 0o11 u = .ok (s.wordAt 0o11) u := by
      rw [run_memRead_mapped (s := u) hq (mapped_identity (s := u) hon hplain 0o11), mappedWord_identity hplain]
      rfl
    refine ⟨hon, ⟨⟨rfl, hpending, hcycle, rfl, hq⟩, hplain⟩, ?_⟩
    rw [hstep, runNext_undefined (run_fetchWords_undefined_mapped hq hx hpc hd') hd']
    exact undefinedWord_mapped (s := u) hon hread
  refine ⟨fun h => ?_, fun h hzero => ?_, fun h hne => ?_⟩
  · rw [hstep, runNext_undefined (run_fetchWords_undefined h hx hd) hd]
    exact undefinedWord_unmapped (s := countHold false s) h.1
  · obtain ⟨-, -, hend⟩ := hmapped h
    rw [hend, if_pos hzero]
  · obtain ⟨hon, hshadow, hend⟩ := hmapped h
    rw [hend, if_neg hne]
    exact trapEnds_identity hshadow hon fun _ => runInstr_ok

end Sys2Proof.Laws
end

section
/-!
SUPPORT for the proof of O48: the host inputs between two instructions, the codes of memory errors, and the physical reads and
writes of words in error (46_io R545 to R557).
-/

namespace Sys2Proof.Laws

open Sys2Proof.Machine

/-! ## A step that takes a host input (46_io R560) -/

theorem step_input {e : HostInput} (he : e ≠ .cpu) (s : State) (rest : List HostInput) :
    step { s with inputs := e :: rest } = runInstr (hostEvent e) { s with inputs := rest } := by
  cases e
  case cpu => exact absurd rfl he
  all_goals rfl

section
variable {s : State} (hrun : s.runState = .running)
include hrun

theorem powered_running : powered s = true := by
  unfold powered
  rw [hrun]
  rfl

theorem consoleHasTerminal_running : consoleHasTerminal s = false := by
  unfold consoleHasTerminal
  rw [hrun]

theorem run_whilePowered (g : State → State) : whilePowered g s = .ok () (g s) := by
  unfold whilePowered
  rw [run_modify, if_pos (powered_running hrun)]

theorem run_ttiChar (c : BitVec 8) : hostEvent (.ttiChar c) s = .ok () { s with tti := ttiArrival c s.tti } := by
  change (modify _ : M Unit) s = _
  rw [run_modify, consoleHasTerminal_running hrun]
  rfl

end

/-! ## The clock and the timer (46_io R549, R551) -/

theorem rtcTickEvent_busy {t : Rtc} (h : t.busy = true) : rtcTickEvent t = { t with busy := false, done := true } :=
  if_pos h

theorem rtcTickEvent_idle {t : Rtc} (h : t.busy = false) : rtcTickEvent t = t := if_neg (by simp [h])

theorem pitTickEvent_overflow {t : Pit} (h : t.busy = true) (hcnt : t.cnt = 0o177777) :
    pitTickEvent t = { t with done := true, cnt := t.icr } := by
  have hzero : t.cnt + 1 = 0 := by rw [hcnt]; rfl
  unfold pitTickEvent
  rw [if_pos h, if_pos hzero]

theorem pitTickEvent_counts {t : Pit} (h : t.busy = true) (hcnt : t.cnt ≠ 0o177777) :
    pitTickEvent t = { t with cnt := t.cnt + 1 } := by
  have hne : t.cnt + 1 ≠ 0 := by bv_omega
  unfold pitTickEvent
  rw [if_pos h, if_neg hne]

theorem pitTickEvent_idle {t : Pit} (h : t.busy = false) : pitTickEvent t = t := if_neg (by simp [h])

/-! ## The fault codes a claim lists (46_io R557) -/

/-- The check corrects the errors of a single bit. -/
theorem corrects_iff : ∀ c : BitVec 6, corrects c = true ↔ c ∈ dataCodes ++ checkCodes := by decide

theorem not_corrects (c : BitVec 6) : (!corrects c) = decide (c ∉ dataCodes ++ checkCodes) := by
  rw [Bool.eq_iff_iff, Bool.not_eq_true', decide_eq_true_iff, ← corrects_iff, Bool.not_eq_true]

theorem faultMeaning_dataCode : ∀ n < 16, faultMeaning (dataCodes.getD n 0) = .dataBit n := by decide

theorem faultMeaning_of_not_dataCode : ∀ c : BitVec 6, c ∉ dataCodes →
    faultMeaning c ∈ [.noError, .twoBits, .manyBits, .lost] ++ (List.range 6).map .checkBit := by decide

theorem not_dataCode_of_checkCode : ∀ c ∈ checkCodes, c ∉ dataCodes := by decide

theorem faultMeaning_eq_noError_iff : ∀ c : BitVec 6, faultMeaning c = .noError ↔ c = 0 := by decide

theorem dataCode_mem : ∀ n < 16, dataCodes.getD n 0 ∈ dataCodes := by decide

/-- The modes whose bits 14 and 15 are 01 write no check code (46_io R555). -/
theorem erccWrites_iff (e : Ercc) : erccWrites e = true ↔ e.mode ∉ ([1, 5] : List (BitVec 3)) := by
  have hmode : ∀ m : BitVec 3, (m.getLsbD 1 || !m.getLsbD 0) = true ↔ m ∉ ([1, 5] : List (BitVec 3)) := by decide
  exact hmode e.mode

section
variable {f : MemFault} {m : List Host.Cell}

theorem mendedWord_dataBit {n : Nat} (h : faultMeaning f.code = .dataBit n) :
    mendedWord m f = rawWord m f ^^^ (0x8000#16 >>> n) := by
  unfold mendedWord
  rw [h]

theorem mendedWord_dataCode {n : Nat} (hn : n < 16) (h : f.code = dataCodes.getD n 0) :
    mendedWord m f = rawWord m f ^^^ (0x8000#16 >>> n) :=
  mendedWord_dataBit (h ▸ faultMeaning_dataCode n hn)

/-- Only the code of a data bit changes the word. -/
theorem mendedWord_of_not_dataCode (h : f.code ∉ dataCodes) : mendedWord m f = rawWord m f := by
  have hmeaning := faultMeaning_of_not_dataCode f.code h
  unfold mendedWord
  split
  · next n hn =>
    rw [hn] at hmeaning
    simp at hmeaning
  all_goals rfl

end

/-! ## Memory errors (46_io R554, R555) -/

section
variable {s : State}

/-- An error of installed memory (46_io R554). -/
theorem run_memError (hrun : s.runState = .running) {addr : BitVec 20} (hp : addr.toNat < s.cfg.boards.words)
    (data : Word) (check : BitVec 6) :
    hostEvent (.memError addr data check) s = putError addr data check s := by
  change (get >>= fun _ => _ : M Unit) s = _
  rw [run_bind_ok (run_get s), if_pos (powered_running hrun)]
  unfold memErrorEvent
  rw [run_bind_ok (run_get s), if_pos hp]

theorem run_memError_beyond (hrun : s.runState = .running) {addr : BitVec 20} (hp : s.cfg.boards.words ≤ addr.toNat)
    (data : Word) (check : BitVec 6) : hostEvent (.memError addr data check) s = .ok () s := by
  change (get >>= fun _ => _ : M Unit) s = _
  rw [run_bind_ok (run_get s), if_pos (powered_running hrun)]
  unfold memErrorEvent
  rw [run_bind_ok (run_get s), if_neg (Nat.not_lt.mpr hp), run_pure]

theorem sniffEvent_on (h : s.ercc.mode.getLsbD 2 = false) : sniffEvent s = { s with
    mem := mendAll (s.memFaults.filter fun f => corrects f.code) s.mem
    memFaults := s.memFaults.filter fun f => !corrects f.code } :=
  if_pos (by rw [erccSniffs, h]; rfl)

theorem sniffEvent_off (h : s.ercc.mode.getLsbD 2 = true) : sniffEvent s = s :=
  if_neg (by rw [erccSniffs, h]; exact Bool.false_ne_true)

/-- Rewriting corrected words leaves the others. -/
theorem readWord_mendAll_other {p : Nat} : ∀ (fs : List MemFault) (m : List Host.Cell),
    (∀ g ∈ fs, g.addr.toNat ≠ p) → Memory.readWord (mendAll fs m) p = Memory.readWord m p
  | [], _, _ => rfl
  | f :: fs, m, h => by
    have hrest := readWord_mendAll_other fs (Memory.writeWord m f.addr.toNat (mendedWord m f))
      fun g hg => h g (List.mem_cons_of_mem f hg)
    exact hrest.trans (readWord_writeWord_other m _ (h f List.mem_cons_self))

/-- Of one error in memory a refresh rewrites its word, if it corrects it. -/
theorem mendAll_single (g : MemFault) (m : List Host.Cell) :
    mendAll ([g].filter fun f => corrects f.code) m =
      if corrects g.code = true then Memory.writeWord m g.addr.toNat (mendedWord m g) else m := by
  by_cases h : corrects g.code = true
  · rw [if_pos h, List.filter_cons_of_pos (p := fun f : MemFault => corrects f.code) h]
    rfl
  · rw [if_neg h, List.filter_cons_of_neg (p := fun f : MemFault => corrects f.code) h]
    rfl

/-! ## Physical writes (46_io R555) -/

theorem findFault_eq_none_iff {pa : Nat} : findFault s pa = none ↔ ∀ g ∈ s.memFaults, g.addr.toNat ≠ pa := by
  simp [findFault]

theorem dropFault_eq_self {l : List MemFault} {pa : Nat} (h : ∀ g ∈ l, g.addr.toNat ≠ pa) : dropFault l pa = l :=
  List.filter_eq_self.mpr fun g hg => decide_eq_true (h g hg)

/-- Where check codes are written an installed word is written with its own, in error or not. -/
theorem run_physWrite_checked {pa : Nat} (hp : pa < s.cfg.boards.words) (hw : erccWrites s.ercc = true) (v : Word) :
    physWrite pa v s = .ok () (storeWord pa v s) := by
  cases hf : findFault s pa with
  | some f => exact run_physWrite_fault hp hf hw v
  | none =>
    rw [run_physWrite hp hf]
    unfold storeWord
    rw [dropFault_eq_self (findFault_eq_none_iff.mp hf)]

/-! ## The data channel between two instructions (46_io R516, 47_map R590) -/

theorem run_dch (hrun : s.runState = .running) {r : DchRequest} {t : State} (ht : dchTransfer r s = .ok () t) :
    hostEvent (.dch r) s = .ok () t := by
  change (get >>= fun _ => _ : M Unit) s = _
  rw [run_bind_ok (run_get s), if_pos (powered_running hrun)]
  unfold dchEvent
  rw [run_bind_ok (run_get s), run_bind_ok ht]
  simp only [hrun]
  rfl

theorem dchTransfer_write (map : AcNo) (a : Addr) (v : Word) :
    dchTransfer (.write map a v) s = physWrite (dchPhys s map a) v s := rfl

theorem run_dchTransfer_read {map : AcNo} {a : Addr} {v : Word} {t : State}
    (hread : physRead (dchPhys s map a) s = .ok v t) :
    dchTransfer (.read map a) s = .ok () { t with outputs := .dchData v :: t.outputs } := by
  change (get >>= fun _ => _ : M Unit) s = _
  rw [run_bind_ok (run_get s), run_bind_ok hread, run_emit]

end

end Sys2Proof.Laws
end

section
/-!
SUPPORT for the proof of O48: what an instruction makes of a word in error and of the data channel transfers due before
its references. Both are outside `Supervisor`, whose memory is quiet; the map is off as there.
-/

namespace Sys2Proof.Laws

open Sys2Proof.Machine

/-! ## References with the map off, memory quiet or not (47_map R575) -/

/-- Supervisor mode but for the state of memory. -/
def Unmapped (s : State) : Prop := s.mapOn = false ∧ s.scPending = false ∧ s.p31 = Config.page31Reset

theorem unmapped_of_supervisor {s : State} (h : Supervisor s) : Unmapped s := by
  obtain ⟨hoff, -, hcycle, hp31, -⟩ := h
  exact ⟨hoff, hcycle, hp31⟩

section
variable {s : State} (h : Unmapped s)
include h

theorem memRead_unmapped (a : Addr) : memRead a s = cpuRead a.toNat s := by
  obtain ⟨hoff, -, hp31⟩ := h
  unfold memRead
  rw [run_bind_ok (run_get s), if_neg (by simp [hoff]), unmappedPhys_eq hp31]

theorem memWriteBy_unmapped (wr : Nat → Word → M Unit) (a : Addr) (v : Word) : memWriteBy wr a v s = wr a.toNat v s := by
  obtain ⟨hoff, -, hp31⟩ := h
  unfold memWriteBy
  rw [run_bind_ok (run_get s), if_neg (by simp [hoff]), unmappedPhys_eq hp31]

theorem dataRead_unmapped (a : Addr) : dataRead a s = cpuRead a.toNat s :=
  (dataRead_eq_memRead h.2.1 a).trans (memRead_unmapped h a)

theorem dataWrite_unmapped (a : Addr) (v : Word) : dataWrite a v s = cpuWrite a.toNat v s :=
  (dataWrite_eq_memWrite h.2.1 a v).trans (memWriteBy_unmapped h cpuWrite a v)

end

theorem run_dchService_nil {s : State} (h : s.dchDue = []) : dchService s = .ok () s := by
  unfold dchService
  rw [run_bind_ok (run_get s)]
  simp only [h]
  rfl

theorem cpuRead_nil {s : State} (h : s.dchDue = []) (pa : Nat) : cpuRead pa s = physRead pa s :=
  run_bind_ok (run_dchService_nil h)

theorem cpuWrite_nil {s : State} (h : s.dchDue = []) (pa : Nat) (v : Word) : cpuWrite pa v s = physWrite pa v s :=
  run_bind_ok (run_dchService_nil h)

/-! ## Instructions of a direct address -/

theorem run_shortEa_direct {s : State} {sa : ShortAddr} (hind : sa.ind = false) : shortEa sa s = .ok (shortIa s sa) s := by
  unfold shortEa resolve resolveBy
  rw [run_bind_ok (run_get s), hind]
  rfl

/-- STA of a direct address ends where its data write leaves it. -/
theorem exec_sta_direct {s t : State} {ac : AcNo} {sa : ShortAddr} (hind : sa.ind = false)
    (hwrite : dataWrite (shortIa s sa) (s.ac.get ac) s = .ok () t) : exec (.sta ac sa) s = .next (t.next 1) := by
  have hea : shortEaData sa s = .ok (shortIa s sa) s := by
    unfold shortEaData resolveBy
    rw [run_bind_ok (run_get s), hind]
    rfl
  change execSta ac sa s = _
  unfold execSta
  apply runInstr_ok
  rw [run_bind_ok hea, run_bind_ok (run_getAc ac s), run_bind_ok hwrite, run_advance]

/-! ## A word in error (46_io R554, R555; 60_exceptions R671) -/

/-- The state with one word of memory in error. -/
def withError (s : State) (f : MemFault) : State := { s with memFaults := [f] }

theorem findFault_withError {s : State} {f : MemFault} {pa : Nat} (h : f.addr.toNat = pa) :
    findFault (withError s f) pa = some f :=
  List.find?_cons_of_pos (decide_eq_true h)

theorem dropFault_self (f : MemFault) : dropFault [f] f.addr.toNat = [] := by
  simp [dropFault]

theorem rawWord_eq {f : MemFault} {e : Addr} (haddr : f.addr.toNat = e.toNat) (s : State) :
    rawWord s.mem f = s.wordAt e ^^^ f.data := by
  unfold rawWord State.wordAt
  rw [haddr]

/-- A word in error stored with its check code: no error is left. -/
theorem storeWord_withError {f : MemFault} {e : Addr} (haddr : f.addr.toNat = e.toNat) (s : State) (v : Word) :
    storeWord e.toNat v (withError s f) = { s.withWord e v with memFaults := [] } := by
  have hdrop : dropFault [f] e.toNat = [] := haddr ▸ dropFault_self f
  unfold storeWord withError
  rw [hdrop]
  rfl

section
variable {f : MemFault} {s : State}

theorem faultyWord_checked (h : erccChecks s.ercc = true) : faultyWord f s = mendedWord s.mem f := if_pos h

/-- The word as it stands, where reads are not checked or the check finds no error. -/
theorem faultyWord_unseen (h : erccChecks s.ercc = false ∨ f.code = 0) : faultyWord f s = rawWord s.mem f := by
  unfold faultyWord
  split
  · next hc =>
    obtain hoff | hcode := h
    · rw [hoff] at hc
      cases hc
    · exact mendedWord_of_not_dataCode (by rw [hcode]; decide)
  · rfl

theorem faultFound_unseen (h : erccChecks s.ercc = false ∨ f.code = 0) : faultFound f s = s := by
  refine if_neg ?_
  rw [Bool.and_eq_true, decide_eq_true_iff, Ne, faultMeaning_eq_noError_iff]
  rintro ⟨hc, hne⟩
  obtain hoff | hcode := h
  · rw [hoff] at hc
    cases hc
  · exact hne hcode

theorem code_ne_zero (h : f.code ∈ dataCodes ++ checkCodes) : f.code ≠ 0 := by
  intro hzero
  rw [hzero] at h
  revert h
  decide

variable (hc : erccChecks s.ercc = true)
include hc

theorem faultFound_corrected (h : f.code ∈ dataCodes ++ checkCodes) : faultFound f s =
    { storeWord f.addr.toNat (mendedWord s.mem f) s with ercc := erccRecord f s.ercc } := by
  have hfound : (erccChecks s.ercc && decide (faultMeaning f.code ≠ .noError)) = true := by
    rw [hc, Bool.true_and, decide_eq_true_iff, Ne, faultMeaning_eq_noError_iff]
    exact code_ne_zero h
  unfold faultFound
  rw [if_pos hfound, if_pos ((corrects_iff f.code).mpr h)]

theorem faultFound_uncorrected (hne : f.code ≠ 0) (h : f.code ∉ dataCodes ++ checkCodes) :
    faultFound f s = { s with ercc := erccRecord f s.ercc } := by
  have hfound : (erccChecks s.ercc && decide (faultMeaning f.code ≠ .noError)) = true := by
    rw [hc, Bool.true_and, decide_eq_true_iff, Ne, faultMeaning_eq_noError_iff]
    exact hne
  unfold faultFound
  rw [if_pos hfound, if_neg (mt (corrects_iff f.code).mp h)]

end

/-- A write without a check code leaves the word in error where it differs from the word the old code belongs to. -/
theorem run_physWrite_differs {s : State} {f : MemFault} {e : Addr} (haddr : f.addr.toNat = e.toNat)
    (hw : erccWrites s.ercc = false) {v : Word} (hv : v ≠ rawWord s.mem f) :
    physWrite e.toNat v (withError s f) = putError f.addr (v ^^^ s.wordAt e) f.check (withError s f) := by
  rw [run_physWrite_unchecked (s := withError s f) (addr_installed s _) (findFault_withError haddr) hw, haddr]
  exact if_neg hv

section
variable {s : State} (h : Supervisor s) {f : MemFault} {ac : AcNo} {sa : ShortAddr} (hind : sa.ind = false)
include h hind

/-- STA of a word in error ends as the physical write of it does. -/
theorem exec_sta_withError {t : State} (hwrite : physWrite (shortIa s sa).toNat (s.ac.get ac) (withError s f) = .ok () t) :
    exec (.sta ac sa) (withError s f) = .next (t.next 1) := by
  obtain ⟨-, -, -, -, -, hdue⟩ := id h
  have hbad : Unmapped (withError s f) := unmapped_of_supervisor (s := s) h
  refine exec_sta_direct hind ?_
  rw [dataWrite_unmapped hbad, cpuWrite_nil (s := withError s f) hdue]
  exact hwrite

variable (haddr : f.addr.toNat = (shortIa s sa).toNat)
include haddr

/-- LDA of a word in error loads what the check delivers, and leaves what it found. -/
theorem exec_lda_withError : exec (.lda ac sa) (withError s f) =
    .next (((faultFound f (withError s f)).withAc ac (faultyWord f (withError s f))).next 1) := by
  obtain ⟨-, -, -, -, -, hdue⟩ := id h
  have hbad : Unmapped (withError s f) := unmapped_of_supervisor (s := s) h
  refine exec_lda_direct hind ?_
  rw [dataRead_unmapped hbad, cpuRead_nil (s := withError s f) hdue]
  exact run_physRead_fault (addr_installed s _) (findFault_withError haddr)

theorem exec_lda_corrected (hc : erccChecks s.ercc = true) (hcode : f.code ∈ dataCodes ++ checkCodes) :
    exec (.lda ac sa) (withError s f) = .next (State.next
      { (s.withWord (shortIa s sa) (mendedWord s.mem f)).withAc ac (mendedWord s.mem f) with
        ercc := erccRecord f s.ercc, memFaults := [] } 1) := by
  have hfound : faultFound f (withError s f) =
      { s.withWord (shortIa s sa) (mendedWord s.mem f) with ercc := erccRecord f s.ercc, memFaults := [] } := by
    rw [faultFound_corrected (s := withError s f) hc hcode, haddr, storeWord_withError haddr]
    rfl
  rw [exec_lda_withError h hind haddr, hfound, faultyWord_checked (s := withError s f) hc]
  rfl

theorem exec_lda_uncorrected (hc : erccChecks s.ercc = true) (hcode : f.code ∉ 0 :: dataCodes ++ checkCodes) :
    exec (.lda ac sa) (withError s f) = .next (State.next
      { (withError s f).withAc ac (rawWord s.mem f) with ercc := erccRecord f s.ercc } 1) := by
  rw [List.cons_append, List.mem_cons, not_or] at hcode
  obtain ⟨hne, hcode⟩ := hcode
  have hword : faultyWord f (withError s f) = rawWord s.mem f :=
    (faultyWord_checked (s := withError s f) hc).trans
      (mendedWord_of_not_dataCode fun hdata => hcode (List.mem_append_left _ hdata))
  rw [exec_lda_withError h hind haddr, faultFound_uncorrected (s := withError s f) hc hne hcode, hword]
  rfl

theorem exec_lda_unseen (hunseen : erccChecks s.ercc = false ∨ f.code = 0) :
    exec (.lda ac sa) (withError s f) = .next (((withError s f).withAc ac (rawWord s.mem f)).next 1) := by
  rw [exec_lda_withError h hind haddr, faultFound_unseen (s := withError s f) hunseen,
    faultyWord_unseen (s := withError s f) hunseen]
  rfl

/-- A store with a check code mends the word (46_io R555). -/
theorem exec_sta_checked (hw : erccWrites s.ercc = true) :
    exec (.sta ac sa) (withError s f) = .next ((s.withWord (shortIa s sa) (s.ac.get ac)).next 1) := by
  obtain ⟨-, -, -, -, hfaults, -⟩ := id h
  have hstored := run_physWrite_fault (s := withError s f) (addr_installed s _) (findFault_withError haddr) hw (s.ac.get ac)
  rw [storeWord_withError haddr, ← hfaults] at hstored
  exact exec_sta_withError h hind hstored

section
variable (hw : erccWrites s.ercc = false)
include hw

theorem exec_sta_unchecked_same (hv : s.ac.get ac = rawWord s.mem f) :
    exec (.sta ac sa) (withError s f) = .next ((withError s f).next 1) := by
  refine exec_sta_withError h hind ?_
  rw [run_physWrite_unchecked (s := withError s f) (addr_installed s _) (findFault_withError haddr) hw]
  exact if_pos hv

theorem exec_sta_unchecked_sound (hv : s.ac.get ac ≠ rawWord s.mem f) (hword : s.ac.get ac = s.wordAt (shortIa s sa))
    (hcheck : f.check = 0) : exec (.sta ac sa) (withError s f) = .next (s.next 1) := by
  obtain ⟨-, -, -, -, hfaults, -⟩ := id h
  have hput := run_physWrite_differs haddr hw hv
  have hdrop : dropFault (withError s f).memFaults f.addr.toNat = s.memFaults := (dropFault_self f).trans hfaults.symm
  rw [run_putError, if_pos ⟨BitVec.xor_eq_zero_iff.mpr hword, hcheck⟩, hdrop] at hput
  exact exec_sta_withError h hind hput

theorem exec_sta_unchecked_differs (hv : s.ac.get ac ≠ rawWord s.mem f)
    (hbad : ¬(s.ac.get ac = s.wordAt (shortIa s sa) ∧ f.check = 0)) :
    exec (.sta ac sa) (withError s f) = .next (State.next { s with
      memFaults := [⟨f.addr, s.ac.get ac ^^^ s.wordAt (shortIa s sa), f.check,
        errorCode (s.ac.get ac ^^^ s.wordAt (shortIa s sa)) f.check ((Config.free64 s.freeIdx).setWidth 6)⟩]
      freeIdx := s.freeIdx + 1 } 1) := by
  have herror : ¬(s.ac.get ac ^^^ s.wordAt (shortIa s sa) = 0 ∧ f.check = 0) :=
    mt (And.imp_left BitVec.xor_eq_zero_iff.mp) hbad
  have hput := run_physWrite_differs haddr hw hv
  have hdrop : dropFault (withError s f).memFaults f.addr.toNat = [] := dropFault_self f
  rw [run_putError, if_neg herror, hdrop] at hput
  exact exec_sta_withError h hind hput

end

end

/-! ## Data channel transfers due (60_exceptions R625, 20_memory R141) -/

/-- The state with these transfers due before the coming references. -/
def withDue (s : State) (due : List (List DchRequest)) : State := { s with dchDue := due }

section
variable {s : State} (h : Supervisor s) (hdch : s.ms.dch = false)
include h

theorem unmapped_withDue (due : List (List DchRequest)) : Unmapped (withDue s due) := unmapped_of_supervisor (s := s) h

theorem findFault_withDue (due : List (List DchRequest)) (pa : Nat) : findFault (withDue s due) pa = none :=
  quiet_findFault (s := s) h.2.2.2.2 pa

/-- The write of an instruction that holds the memory bus: no transfer falls before it. -/
theorem memWriteHeld_withDue (due : List (List DchRequest)) (e : Addr) (x : Word) :
    memWriteHeld e x (withDue s due) = .ok () (withDue (s.withWord e x) due) :=
  (memWriteBy_unmapped (unmapped_withDue h due) physWrite e x).trans
    (run_physWrite (s := withDue s due) (addr_installed s e) (findFault_withDue h due _) x)

variable (map : AcNo) (a : Addr) (v : Word) (due : List (List DchRequest))
include hdch

/-- The transfer of a word that is due, its map off. -/
theorem run_dchService_withDue :
    dchService (withDue s ([.write map a v] :: due)) = .ok () (withDue (s.withWord a v) due) := by
  have hphys : dchPhys (withDue s due) map a = a.toNat := if_neg (by simp [withDue, hdch])
  have hwrite : dchTransfer (.write map a v) (withDue s due) = .ok () (withDue (s.withWord a v) due) := by
    rw [dchTransfer_write, hphys]
    exact run_physWrite (s := withDue s due) (addr_installed s a) (findFault_withDue h due _) v
  rw [run_dchService_cons (s := withDue s _) rfl]
  exact run_bind_ok hwrite

theorem memRead_withDue (e : Addr) : memRead e (withDue s ([.write map a v] :: due)) =
    .ok ((s.withWord a v).wordAt e) (withDue (s.withWord a v) due) := by
  rw [memRead_unmapped (unmapped_withDue h _)]
  refine (run_bind_ok (run_dchService_withDue h hdch map a v due)).trans ?_
  exact run_physRead (s := withDue (s.withWord a v) due) (addr_installed s e)
    (findFault_withDue (supervisor_withWord h a v) due _)

theorem memWrite_withDue (e : Addr) (x : Word) : memWrite e x (withDue s ([.write map a v] :: due)) =
    .ok () (withDue ((s.withWord a v).withWord e x) due) := by
  refine (memWriteBy_unmapped (unmapped_withDue h _) cpuWrite e x).trans ?_
  refine (run_bind_ok (run_dchService_withDue h hdch map a v due)).trans ?_
  exact run_physWrite (s := withDue (s.withWord a v) due) (addr_installed s e)
    (findFault_withDue (supervisor_withWord h a v) due _) x

end

/-- A bit pointer whose base is direct is found without a reference (20_memory R125, R126). -/
theorem run_bitWord_direct {s : State} {acs acd : AcNo} {e : Addr} (hplace : s.bitPlace acs acd = some e)
    (hdirect : acs = acd ∨ (s.ac.get acs).msb = false) (due : List (List DchRequest)) :
    bitWord acs acd (withDue s due) = .ok e (withDue s due) := by
  unfold State.bitPlace at hplace
  unfold bitWord
  rw [run_bind_ok (run_getAc acd _)]
  by_cases hsame : acs = acd
  · rw [if_pos hsame] at hplace ⊢
    rw [← Option.some.inj hplace]
    rfl
  · rw [if_neg hsame] at hplace ⊢
    have hmsb := hdirect.resolve_left hsame
    obtain ⟨base, hbase, rfl⟩ := Option.map_eq_some_iff.mp hplace
    unfold State.wordTarget State.resolved at hbase
    rw [hmsb, if_neg Bool.false_ne_true] at hbase
    rw [← Option.some.inj hbase, run_bind_ok (run_getAc acs _)]
    unfold resolveWord resolve resolveBy
    rw [show (withDue s due).ac = s.ac from rfl, hmsb, if_neg Bool.false_ne_true, run_bind_ok (run_pure _ _)]
    rfl

/-- A bit set: its place, the read, and the write of the word with it. -/
theorem run_setBit {wr : Addr → Word → M Unit} {s t u : State} {acs acd : AcNo} {e : Addr} {w : Word}
    (hplace : bitWord acs acd s = .ok e s) (hread : memRead e s = .ok w t)
    (hwrite : wr e (w ||| bitMask (bitNumber (s.ac.get acd))) t = .ok () u) :
    updateBit wr acs acd true s = .ok (w.getMsbD (bitNumber (s.ac.get acd)).toNat) u := by
  unfold updateBit
  rw [run_bind_ok (run_getAc acd s), run_bind_ok hplace, run_bind_ok hread, if_pos rfl, run_bind_ok hwrite]
  rfl

section
variable {s : State} (h : Supervisor s) (hdch : s.ms.dch = false) (map : AcNo) (a : Addr) (v : Word)
  (due : List (List DchRequest))
include h hdch

theorem exec_lda_withDue {ac : AcNo} {sa : ShortAddr} (hind : sa.ind = false) :
    exec (.lda ac sa) (withDue s ([.write map a v] :: due)) =
      .next (withDue (((s.withWord a v).withAc ac ((s.withWord a v).wordAt (shortIa s sa))).next 1) due) := by
  refine exec_lda_direct (t := withDue (s.withWord a v) due) hind ?_
  exact (dataRead_eq_memRead (unmapped_withDue h _).2.1 _).trans (memRead_withDue h hdch map a v due _)

/-- ISZ holds the bus: the transfer falls before its read, and none before its write. -/
theorem exec_isz_withDue {sa : ShortAddr} (hind : sa.ind = false) :
    exec (.isz sa) (withDue s ([.write map a v] :: due)) =
      .next (withDue (((s.withWord a v).withWord (shortIa s sa) ((s.withWord a v).wordAt (shortIa s sa) + 1)).nextSkip 1
        (decide ((s.withWord a v).wordAt (shortIa s sa) + 1 = 0))) due) := by
  refine runInstr_ok ((run_bind_ok (run_shortEa_direct hind)).trans ?_)
  exact (run_bind_ok (memRead_withDue h hdch map a v due _)).trans
    (run_bind_ok (memWriteHeld_withDue (supervisor_withWord h a v) due _ _))

variable {acs acd : AcNo} {e : Addr} (hplace : s.bitPlace acs acd = some e)
  (hdirect : acs = acd ∨ (s.ac.get acs).msb = false)
include hplace hdirect

theorem exec_szbo_withDue : exec (.szbo acs acd) (withDue s ([.write map a v] :: due)) =
    .next (withDue (((s.withWord a v).withWord e
        ((s.withWord a v).wordAt e ||| bitMask (bitNumber (s.ac.get acd)))).nextSkip 1
      (!((s.withWord a v).wordAt e).getMsbD (bitNumber (s.ac.get acd)).toNat)) due) := by
  have hbit := run_setBit (run_bitWord_direct hplace hdirect _) (memRead_withDue h hdch map a v due e)
    (memWriteHeld_withDue (supervisor_withWord h a v) due e _)
  exact runInstr_ok (run_bind_ok hbit)

/-- BTO does not hold the bus: a transfer falls before its write too. -/
theorem exec_bto_withDue (map' : AcNo) (b : Addr) (w : Word) :
    exec (.bto acs acd) (withDue s ([.write map a v] :: [.write map' b w] :: due)) =
      .next (withDue ((((s.withWord a v).withWord b w).withWord e
        ((s.withWord a v).wordAt e ||| bitMask (bitNumber (s.ac.get acd)))).next 1) due) := by
  have hbit := run_setBit (run_bitWord_direct hplace hdirect _)
    (memRead_withDue h hdch map a v ([.write map' b w] :: due) e)
    (memWrite_withDue (supervisor_withWord h a v) hdch map' b w due e _)
  exact runInstr_ok (run_bind_ok hbit)

end

end Sys2Proof.Laws
end

section
/-!
Proof of O48: the state after each host input, and the device events together.
-/

namespace Sys2Proof.Laws

open Sys2Proof.Machine

/-- A step that takes this host input, and the state it leaves. -/
def After (s : State) (rest : List HostInput) (e : HostInput) (t : State) : Prop :=
  step { s with inputs := e :: rest } = .next { t with inputs := rest }

section
variable {s : State} {rest : List HostInput} (hrun : s.runState = .running)

theorem after_input {e : HostInput} {t : State} (he : e ≠ .cpu)
    (h : hostEvent e { s with inputs := rest } = .ok () { t with inputs := rest }) : After s rest e t :=
  (step_input he s rest).trans (runInstr_ok h)

include hrun

/-! ## Devices (46_io R545 to R551; 60_exceptions R658) -/

/-- An input that changes a device while the machine has power. -/
theorem after_powered {e : HostInput} {g : State → State} {t : State} (he : e ≠ .cpu) (hevent : hostEvent e = whilePowered g)
    (ht : g { s with inputs := rest } = { t with inputs := rest }) : After s rest e t := by
  refine after_input he ?_
  rw [hevent, ← ht]
  exact run_whilePowered (s := { s with inputs := rest }) hrun g

theorem after_ttiChar (c : BitVec 8) : After s rest (.ttiChar c) { s with tti := ttiArrival c s.tti } :=
  after_input nofun (run_ttiChar (s := { s with inputs := rest }) hrun c)

theorem after_rtcTick {r : Rtc} (h : rtcTickEvent s.rtc = r) : After s rest .rtcTick { s with rtc := r } :=
  after_powered hrun nofun rfl (congrArg (fun r => { s with inputs := rest, rtc := r }) h)

theorem after_pitTick {p : Pit} (h : pitTickEvent s.pit = p) : After s rest .pitTick { s with pit := p } :=
  after_powered hrun nofun rfl (congrArg (fun p => { s with inputs := rest, pit := p }) h)

/-! ## Memory (46_io R554, R557) -/

section
variable {addr : BitVec 20} (hp : addr.toNat < s.cfg.boards.words) {data : Word} {check : BitVec 6}
include hp

theorem after_memError_none (h : data = 0 ∧ check = 0) :
    After s rest (.memError addr data check) { s with memFaults := dropFault s.memFaults addr.toNat } := by
  refine after_input nofun ((run_memError (s := { s with inputs := rest }) hrun hp data check).trans ?_)
  rw [run_putError, if_pos h]

theorem after_memError (h : ¬(data = 0 ∧ check = 0)) :
    After s rest (.memError addr data check) { s with
      memFaults := ⟨addr, data, check, errorCode data check ((Config.free64 s.freeIdx).setWidth 6)⟩ ::
        dropFault s.memFaults addr.toNat
      freeIdx := s.freeIdx + 1 } := by
  refine after_input nofun ((run_memError (s := { s with inputs := rest }) hrun hp data check).trans ?_)
  rw [run_putError, if_neg h]

end

/-- A refresh, where it corrects. -/
theorem after_sniffed (h : s.ercc.mode.getLsbD 2 = false) : After s rest .sniffed { s with
    mem := mendAll (s.memFaults.filter fun f => corrects f.code) s.mem
    memFaults := s.memFaults.filter fun g => decide (g.code ∉ dataCodes ++ checkCodes) } := by
  refine after_powered hrun nofun rfl ((sniffEvent_on (s := { s with inputs := rest }) h).trans ?_)
  simp only [not_corrects]

theorem after_sniffed_off (h : s.ercc.mode.getLsbD 2 = true) : After s rest .sniffed s :=
  after_powered hrun nofun rfl (sniffEvent_off (s := { s with inputs := rest }) h)

/-! ## The data channel (46_io R516, 47_map R590) -/

section
variable {map : AcNo} {a : Addr} {pa : Nat} (hpa : dchPhys s map a = pa)
include hpa

theorem after_dch_write {v : Word} {t : State}
    (h : physWrite pa v { s with inputs := rest } = .ok () { t with inputs := rest }) :
    After s rest (.dch (.write map a v)) t := by
  subst hpa
  exact after_input nofun (run_dch (s := { s with inputs := rest }) hrun h)

theorem after_dch_read {v : Word} {t : State}
    (h : physRead pa { s with inputs := rest } = .ok v { t with inputs := rest }) :
    After s rest (.dch (.read map a)) { t with outputs := .dchData v :: t.outputs } := by
  subst hpa
  exact after_input nofun (run_dch (s := { s with inputs := rest }) hrun
    (run_dchTransfer_read (t := { t with inputs := rest }) h))

theorem after_dch_write_checked (hp : pa < s.cfg.boards.words) (hmode : s.ercc.mode ∉ ([1, 5] : List (BitVec 3)))
    (v : Word) :
    After s rest (.dch (.write map a v)) (storeWord pa v s) :=
  after_dch_write hrun hpa
    (run_physWrite_checked (s := { s with inputs := rest }) hp ((erccWrites_iff s.ercc).mpr hmode) v)

theorem after_dch_write_sound (hp : pa < s.cfg.boards.words) (hsound : ∀ g ∈ s.memFaults, g.addr.toNat ≠ pa) (v : Word) :
    After s rest (.dch (.write map a v)) { s with mem := Memory.writeWord s.mem pa v } :=
  after_dch_write hrun hpa
    (run_physWrite (s := { s with inputs := rest }) hp (findFault_eq_none_iff.mpr hsound) v)

theorem after_dch_read_sound (hp : pa < s.cfg.boards.words) (hsound : ∀ g ∈ s.memFaults, g.addr.toNat ≠ pa) :
    After s rest (.dch (.read map a)) { s with outputs := .dchData (Memory.readWord s.mem pa) :: s.outputs } :=
  after_dch_read hrun hpa
    (run_physRead (s := { s with inputs := rest }) hp (findFault_eq_none_iff.mpr hsound))

theorem after_dch_write_beyond (hp : s.cfg.boards.words ≤ pa) (v : Word) : After s rest (.dch (.write map a v)) s :=
  after_dch_write hrun hpa
    (run_physWrite_beyond (s := { s with inputs := rest }) (Nat.not_lt.mpr hp) v)

theorem after_dch_read_beyond (hp : s.cfg.boards.words ≤ pa) : After s rest (.dch (.read map a)) { s with
    outputs := .dchData ((Config.free64 s.freeIdx).setWidth 16) :: s.outputs, freeIdx := s.freeIdx + 1 } :=
  after_dch_read (t := { s with freeIdx := s.freeIdx + 1 }) hrun hpa
    (run_physRead_beyond (s := { s with inputs := rest }) (Nat.not_lt.mpr hp))

end

end

/-! ## The words a refresh leaves (46_io R554, R557) -/

/-- The word of a single error, as a refresh leaves it where it corrects it. -/
theorem readWord_mendAll_single {g : MemFault} (m : List Host.Cell) (h : g.code ∈ dataCodes ++ checkCodes) :
    Memory.readWord (mendAll ([g].filter fun f => corrects f.code) m) g.addr.toNat = mendedWord m g := by
  rw [mendAll_single, if_pos ((corrects_iff g.code).mpr h), readWord_writeWord_same]

theorem mendAll_single_uncorrected {g : MemFault} (m : List Host.Cell) (h : g.code ∉ dataCodes ++ checkCodes) :
    mendAll ([g].filter fun f => corrects f.code) m = m := by
  rw [mendAll_single, if_neg (mt (corrects_iff g.code).mp h)]

/-! ## The events together -/

/-- Settles O48: each host input by the event it runs, then LDA and STA of a word in error by the physical read and write of
it, and the data channel by the transfers that fall before each reference. -/
theorem deviceEvents : Obligations.DeviceEvents := by
  unfold Obligations.DeviceEvents
  refine ⟨fun s c rest hrun => ?_, fun s rest addr data check map a v hrun => ?_,
    fun s f ac sa h hind haddr => ?_, fun s ac acs acd sa map a b v w due h hdch hind hplace hdirect => ?_⟩
  · exact ⟨after_ttiChar hrun c, after_powered hrun nofun rfl rfl,
      fun hbusy => after_rtcTick hrun (rtcTickEvent_busy hbusy),
      fun hidle => after_rtcTick hrun (rtcTickEvent_idle hidle),
      fun hbusy hcnt => after_pitTick hrun (pitTickEvent_overflow hbusy hcnt),
      fun hbusy hcnt => after_pitTick hrun (pitTickEvent_counts hbusy hcnt),
      fun hidle => after_pitTick hrun (pitTickEvent_idle hidle), after_powered hrun nofun rfl rfl⟩
  · intro after entry pa others
    have hpa : dchPhys s map a = pa := rfl
    refine ⟨fun hp => ⟨after_memError_none hrun hp, fun herror =>
        ⟨_, errorCode_right data check _, after_memError hrun hp herror⟩⟩,
      fun hp => after_input nofun (run_memError_beyond (s := { s with inputs := rest }) hrun hp data check),
      fun hsniff => ⟨_, after_sniffed hrun hsniff, fun p hother => ?_, fun g hg => ?_⟩, after_sniffed_off hrun,
      fun hp => ⟨fun hmode => after_dch_write_checked hrun hpa hp hmode v, fun hsound =>
        ⟨after_dch_write_sound hrun hpa hp hsound v, after_dch_read_sound hrun hpa hp hsound⟩⟩,
      fun hp => ⟨after_dch_write_beyond hrun hpa hp v, _, after_dch_read_beyond hrun hpa hp⟩⟩
    · exact readWord_mendAll_other _ _ fun g hg => hother g (List.mem_filter.mp hg).1
    · rw [hg]
      refine ⟨fun n hn hcode => ?_, fun hcode => ?_, mendAll_single_uncorrected s.mem⟩
      · have hdata : g.code ∈ dataCodes := hcode ▸ dataCode_mem n hn
        rw [readWord_mendAll_single s.mem (List.mem_append_left _ hdata), mendedWord_dataCode hn hcode]
        rfl
      · rw [readWord_mendAll_single s.mem (List.mem_append_right _ hcode),
          mendedWord_of_not_dataCode (not_dataCode_of_checkCode g.code hcode)]
        rfl
  · have hraw : rawWord s.mem f = s.wordAt (shortIa s sa) ^^^ f.data := rawWord_eq haddr s
    have hunwritten : s.ercc.mode ∈ ([1, 5] : List (BitVec 3)) → erccWrites s.ercc = false := fun hmode =>
      Bool.eq_false_iff.mpr fun hw => (erccWrites_iff s.ercc).mp hw hmode
    refine ⟨fun n hn hc hcode => ?_, fun hc hcode => ?_, fun hc hcode => ?_, fun hunseen => ?_, fun hmode => ?_,
      fun hmode hv => ?_, fun hmode hv hword hcheck => ?_, fun hmode hv hbad => ?_, ?_, ?_⟩
    · have hdata : f.code ∈ dataCodes := hcode ▸ dataCode_mem n hn
      rw [← hraw, ← mendedWord_dataCode hn hcode]
      exact exec_lda_corrected h hind haddr hc (List.mem_append_left _ hdata)
    · rw [← hraw, ← mendedWord_of_not_dataCode (not_dataCode_of_checkCode f.code hcode)]
      exact exec_lda_corrected h hind haddr hc (List.mem_append_right _ hcode)
    · rw [← hraw]
      exact exec_lda_uncorrected h hind haddr hc hcode
    · rw [← hraw]
      exact exec_lda_unseen h hind haddr hunseen
    · exact exec_sta_checked h hind haddr ((erccWrites_iff s.ercc).mpr hmode)
    · exact exec_sta_unchecked_same h hind haddr (hunwritten hmode) (hv.trans hraw.symm)
    · exact exec_sta_unchecked_sound h hind haddr (hunwritten hmode) (fun heq => hv (heq.trans hraw)) hword hcheck
    · exact ⟨_, errorCode_right _ _ _,
        exec_sta_unchecked_differs h hind haddr (hunwritten hmode) (fun heq => hv (heq.trans hraw)) hbad⟩
    · refine exec_sta h ?_
      unfold State.shortAt State.resolved
      rw [hind]
      rfl
    · exact (iff_of_eq (congrArg (· = true) rfl)).trans Bool.and_eq_true_iff
  · exact ⟨exec_lda_withDue h hdch map a v due hind, exec_isz_withDue h hdch map a v _ hind,
      exec_szbo_withDue h hdch map a v _ hplace hdirect, exec_bto_withDue h hdch map a v due hplace hdirect map b w⟩

end Sys2Proof.Laws
end

section
/-!
Proof of O51: which devices request an interrupt, and the order in which an acknowledge looks for one.
-/

namespace Sys2Proof.Laws

open Sys2Proof.Machine

/-! ## The search (60_exceptions R622, R624) -/

theorem mem_allCodes (d : DevCode) : d ∈ allCodes :=
  List.mem_map.mpr ⟨d.toNat, List.mem_range.mpr d.isLt, (BitVec.ofNat_toNat 6 d).trans (BitVec.setWidth_eq d)⟩

theorem irq_iff {s : State} : irq s = true ↔ ∃ d, requesting s d = true := by
  unfold irq
  rw [List.any_eq_true]
  exact ⟨fun ⟨d, _, hd⟩ => ⟨d, hd⟩, fun ⟨d, hd⟩ => ⟨d, mem_allCodes d, hd⟩⟩

/-- An acknowledge finds the first requesting device of the order of priority. -/
theorem ackCode_of_find {s : State} {d : DevCode}
    (h : (s.cfg.intPriority ++ allCodes).find? (requesting s) = some d) : ackCode s = d := by
  unfold ackCode
  rw [h, Option.getD_some]

/-- Where some device requests, the search ends at one. -/
theorem requesting_ackCode {s : State} (h : irq s = true) : requesting s (ackCode s) = true := by
  obtain ⟨d, hd⟩ := irq_iff.mp h
  cases hfind : (s.cfg.intPriority ++ allCodes).find? (requesting s) with
  | some c => rw [ackCode_of_find hfind]; exact List.find?_some hfind
  | none => exact absurd hd (List.find?_eq_none.mp hfind d (List.mem_append_right _ (mem_allCodes d)))

/-- Where none requests, 77 octal (46_io R524, D43). -/
theorem ackCode_of_no_request {s : State} (h : irq s = false) : ackCode s = 0o77 := by
  have hnone : ∀ d ∈ s.cfg.intPriority ++ allCodes, ¬ requesting s d = true := by
    intro d _ hd
    rw [irq_iff.mpr ⟨d, hd⟩] at h
    cases h
  unfold ackCode
  rw [List.find?_eq_none.mpr hnone]
  rfl

/-- A listed device that no device before it in the list precedes. -/
theorem ackCode_listed {s : State} {before after : List DevCode} {d : DevCode}
    (hlist : s.cfg.intPriority = before ++ d :: after) (hbefore : ∀ x ∈ before, requesting s x = false)
    (hd : requesting s d = true) : ackCode s = d := by
  have hnone : before.find? (requesting s) = none := List.find?_eq_none.mpr fun x hx => by simp [hbefore x hx]
  apply ackCode_of_find
  rw [hlist, List.append_assoc, List.find?_append, hnone, List.cons_append, List.find?_cons_of_pos hd]
  rfl

/-- The codes ascend, so that the first of them that requests is the least. -/
theorem find_allCodes_le {p : DevCode → Bool} {c d : DevCode} (hfind : allCodes.find? p = some c) (hd : p d = true) :
    c.toNat ≤ d.toNat := by
  obtain ⟨-, before, after, hsplit, hbefore⟩ := List.find?_eq_some_iff_append.mp hfind
  have hsorted : allCodes.Pairwise fun x y => x.toNat < y.toNat := by decide
  rw [hsplit] at hsorted
  have hmem : d ∈ before ++ c :: after := hsplit ▸ mem_allCodes d
  rcases List.mem_append.mp hmem with hb | hca
  · exact absurd hd (by simpa using hbefore d hb)
  · rcases List.mem_cons.mp hca with rfl | ha
    · exact le_rfl
    · exact ((List.pairwise_cons.mp (List.pairwise_append.mp hsorted).2.1).1 d ha).le

/-- Where no listed device requests, the least code that does (log 36). -/
theorem ackCode_le {s : State} (hlist : ∀ x ∈ s.cfg.intPriority, requesting s x = false) {d : DevCode}
    (hd : requesting s d = true) : (ackCode s).toNat ≤ d.toNat := by
  have hnone : s.cfg.intPriority.find? (requesting s) = none := List.find?_eq_none.mpr fun x hx => by simp [hlist x hx]
  cases hfind : allCodes.find? (requesting s) with
  | none => exact absurd hd (List.find?_eq_none.mp hfind d (mem_allCodes d))
  | some c =>
    have hack : ackCode s = c := by
      apply ackCode_of_find
      rw [List.find?_append, hnone, Option.none_or, hfind]
    rw [hack]
    exact find_allCodes_le hfind hd

/-! ## Who requests (46_io R517, R525, R559) -/

section
variable {s : State} {d : DevCode} (hb : isBoard d = false) (hc : d ≠ devCpu) (h0 : d ≠ 0)
include hb hc h0

theorem requesting_absent (hx : findExt s d = none) : requesting s d = false := by
  obtain ⟨-, hercc, -, htti, htto, hrtc, hpit⟩ := (isBoard_eq_false_iff d).mp hb
  unfold requesting
  rw [if_neg h0, if_neg hercc, if_neg htti, if_neg htto, if_neg hrtc, if_neg hpit, isBoard_or_cpu_eq_false hb hc]
  simp [hx]

theorem requesting_answered {x : ExtDevice} (hx : findExt s d = some x) : requesting s d = (x.done && !extIdis s x) := by
  obtain ⟨-, hercc, -, htti, htto, hrtc, hpit⟩ := (isBoard_eq_false_iff d).mp hb
  unfold requesting
  rw [if_neg h0, if_neg hercc, if_neg htti, if_neg htto, if_neg hrtc, if_neg hpit, isBoard_or_cpu_eq_false hb hc]
  simp [hx]

end

theorem extIdis_unmaskable {s : State} {x : ExtDevice} (h : maskBit x = none) : extIdis s x = false := by
  unfold extIdis
  rw [h]

theorem extIdis_maskable {s : State} {x : ExtDevice} {b : BitVec 4} (h : maskBit x = some b) :
    extIdis s x = s.mask.getMsbD b.toNat := by
  unfold extIdis
  rw [h]
  rfl

/-- The mask bit by the kind of controller (46_io R517 and its footnotes). -/
theorem maskBit_of_kind (x : ExtDevice) :
    (x.kind = .listed → maskBit x = listedBit x.code) ∧ (x.kind = .cas → maskBit x = some 10) ∧
    (x.kind = .mx1 → maskBit x = some 11) ∧ (x.kind = .dpi ∨ x.kind = .dpo → maskBit x = some 8) ∧
    (x.kind = .dcu → maskBit x = some 4) ∧ (x.kind = .iop false → maskBit x = some 5) ∧
    (x.kind = .iop true → maskBit x = none) ∧ ∀ b : Option (BitVec 4), x.kind = .other b → maskBit x = b := by
  unfold maskBit
  refine ⟨?_, ?_, ?_, ?_, ?_, ?_, ?_, fun b => ?_⟩
  case refine_4 => rintro (h | h) <;> rw [h]
  all_goals
    intro h
    rw [h]
  all_goals rfl

/-- Settles O51: the search by where it ends, and each device's request by its row of the definition. -/
theorem ackCode : Obligations.AckCode := by
  unfold Obligations.AckCode
  intro s
  refine ⟨requesting_ackCode, ackCode_of_no_request, fun _ _ _ => ackCode_listed, fun d hl hd => ackCode_le hl hd, irq_iff,
    ⟨rfl, ?_, rfl, rfl, rfl, rfl, rfl, rfl, rfl⟩, fun d hb hc h0 => ⟨requesting_absent hb hc h0, fun x hx => ⟨fun hn => ?_,
    fun b hm => ?_⟩⟩, maskBit_of_kind, by decide⟩
  · exact (Bool.and_assoc ..).symm
  · rw [requesting_answered hb hc h0 hx, extIdis_unmaskable hn, Bool.not_false, Bool.and_true]
  · rw [requesting_answered hb hc h0 hx, extIdis_maskable hm]

end Sys2Proof.Laws
end

section
/-!
Proof of O54. The eight maps are written one entry at a time, whatever the group the code names; LMP is the entry it loads,
its two counts, and the test whether the word was the last.
-/

namespace Sys2Proof.Laws

set_option Elab.async false

open Sys2Proof.Machine

/-! ## The entries of the eight maps (47_map R572, R573) -/

theorem entry_setEntry (m : PageMap) (p p' : BitVec 5) (e : MapEntry) :
    PageMap.entry (PageMap.setEntry m p e) p' = if p' = p then e else PageMap.entry m p' := by
  have hread : PageMap.entry (PageMap.setEntry m p e) p' = if p.toNat = p'.toNat then e else PageMap.entry m p' :=
    Vector.getElem_set p.isLt p'.isLt
  rw [hread]
  simp only [BitVec.toNat_inj, eq_comm]

/-- A map of four with one entry replaced. -/
theorem entry_get_set (q : Quad PageMap) (i j : AcNo) (p p' : BitVec 5) (e : MapEntry) :
    PageMap.entry ((q.set i (PageMap.setEntry (q.get i) p e)).get j) p' =
      if j = i ∧ p' = p then e else PageMap.entry (q.get j) p' := by
  by_cases hij : j = i
  · rw [hij, quad_get_set_same, entry_setEntry]
    simp only [true_and]
  · rw [quad_get_set_other q _ (Ne.symm hij), if_neg (fun h => hij h.1)]

/-- A code is its group and its number. -/
theorem mapCode_eq_iff : ∀ c c' : BitVec 3, c' = c ↔ selIsDch c' = selIsDch c ∧ selNumber c' = selNumber c := by decide

theorem selEntry_setSelEntry (s : State) (c c' : BitVec 3) (p p' : BitVec 5) (e : MapEntry) :
    selEntry (setSelEntry s c p e) c' p' = if c' = c ∧ p' = p then e else selEntry s c' p' := by
  simp only [mapCode_eq_iff c c']
  unfold selEntry setSelEntry
  cases selIsDch c <;> cases selIsDch c'
  case true.true | false.false => simpa using entry_get_set _ _ _ p p' e
  all_goals simp

theorem setSelEntry_frame (s : State) (c : BitVec 3) (p : BitVec 5) (e : MapEntry) :
    { setSelEntry s c p e with umap := s.umap, dmap := s.dmap } = s := by
  unfold setSelEntry
  split <;> rfl

theorem setSelEntry_withAc (s : State) (i : AcNo) (v : Word) (c : BitVec 3) (p : BitVec 5) (e : MapEntry) :
    setSelEntry (s.withAc i v) c p e = (setSelEntry s c p e).withAc i v := by
  unfold setSelEntry
  split <;> rfl

theorem setSelEntry_ac (s : State) (c : BitVec 3) (p : BitVec 5) (e : MapEntry) : (setSelEntry s c p e).ac = s.ac := by
  unfold setSelEntry
  split <;> rfl

theorem setSelEntry_freeIdx (s : State) (k : Nat) (c : BitVec 3) (p : BitVec 5) (e : MapEntry) :
    setSelEntry { s with freeIdx := k } c p e = { setSelEntry s c p e with freeIdx := k } := by
  unfold setSelEntry
  split <;> rfl

/-! ## One word of LMP (47_map R591) -/

theorem entryOfWord_eq (w : Word) : entryOfWord w = ⟨w.msb, w.extractLsb' 0 10⟩ := by
  rw [entryOfWord, BitVec.setWidth_eq_extractLsb' (by decide)]

theorem run_loadEntry {s : State} (h0 : s.ac.get 0 = 0 ∨ s.ac.get 0 = 3) (w : Word) :
    loadEntry w s = .ok () (setSelEntry s s.ms.mapsel (pageOfWord w) (entryOfWord w)) := by
  unfold loadEntry
  rw [run_bind_ok (run_getAc 0 s), if_pos (by simpa using h0), run_modify]

/-- With another AC0 the entry is drawn, its protection and its page (93_implementation_defined U21). -/
theorem run_loadEntry_free {s : State} (h0 : s.ac.get 0 ≠ 0) (h3 : s.ac.get 0 ≠ 3) (w : Word) :
    ∃ e, loadEntry w s =
      .ok () { setSelEntry s s.ms.mapsel (pageOfWord w) e with freeIdx := s.freeIdx + 2 } := by
  refine ⟨⟨decide ((Config.free64 s.freeIdx).setWidth 1 = 1), (Config.free64 (s.freeIdx + 1)).setWidth 10⟩, ?_⟩
  unfold loadEntry
  rw [run_bind_ok (run_getAc 0 s), if_neg (by simpa using And.intro h0 h3), ← setSelEntry_freeIdx]
  rfl

/-- The two counts of LMP after a word at `a`, in a state whose other parts are those of `u`. -/
def lmpCounted (s : State) (a : Addr) (u : State) : State :=
  { u with ac := ⟨s.ac.get 0, s.ac.get 1 - 1, joinWord false a + 1, s.ac.get 3⟩ }

/-- The end of a step of LMP: the instruction ends with its last word. -/
def lmpEnds (s t : State) : State := if s.ac.get 1 = 1 then t.next 1 else t

/-- The address after another than the last is no indirect one. -/
theorem msb_joinWord_succ {a : Addr} (h : a ≠ 0o77777) : (joinWord false a + 1).msb = false := by
  have hne : a.toNat ≠ 32767 := fun hn => h (BitVec.eq_of_toNat_eq hn)
  have ha := a.isLt
  rw [BitVec.msb_eq_false_iff_two_mul_lt, BitVec.toNat_add, toNat_joinWord_false]
  change 2 * ((a.toNat + 1) % 65536) < 65536
  omega

section
variable {s : State} (h : Supervisor s) {a : Addr} (ha : s.wordTarget (s.ac.get 2) = some a)
include h ha

/-- LMP resolves its address and runs its loop. -/
theorem exec_lmp_eq : exec .lmp s = runInstr (lmpLoop (pure ()) 65536) (s.withAc 2 (joinWord false a)) := by
  change runInstr (lmpStep (pure ())) s = _
  unfold runInstr
  rw [run_lmpStep h, run_bind_ok (run_resolveAc h ha)]

theorem exec_lmp_none (hn : s.ac.get 1 = 0) : exec .lmp s = .next ((s.withAc 2 (joinWord false a)).next 1) := by
  have hcount : (s.withAc 2 (joinWord false a)).ac.get 1 = 0 := hn
  rw [exec_lmp_eq h ha]
  apply runInstr_ok
  unfold lmpLoop
  rw [run_bind_ok (run_getAc 1 _), if_pos hcount, run_advance]

omit ha in
/-- A word of LMP is the load of its entry and the counts. -/
theorem run_lmpWord {t : State} (hload : loadEntry (s.wordAt a) (s.withAc 2 (joinWord false a)) = .ok () t)
    (hac : t.ac = (s.withAc 2 (joinWord false a)).ac) :
    lmpWord (s.withAc 2 (joinWord false a)) = .ok () (lmpCounted s a t) := by
  have hread : memRead ((joinWord false a).setWidth 15) (s.withAc 2 (joinWord false a)) =
      .ok (s.wordAt a) (s.withAc 2 (joinWord false a)) := by
    rw [setWidth_joinWord]
    exact run_memRead (supervisor_withAc h 2 _) a
  unfold lmpWord
  rw [run_bind_ok (run_getAc 2 _), withAc_ac, quad_get_set_same, run_bind_ok hread, run_bind_ok hload]
  change EStateM.Result.ok () ((t.withAc 1 (t.ac.get 1 - 1)).withAc 2 (joinWord false a + 1)) = _
  unfold lmpCounted State.withAc
  rw [hac]
  rfl

/-- LMP with words left, up to the load of its entry. -/
theorem exec_lmp_word {t : State} (hn : s.ac.get 1 ≠ 0) (hlast : s.ac.get 1 = 1 ∨ a ≠ 0o77777)
    (hload : loadEntry (s.wordAt a) (s.withAc 2 (joinWord false a)) = .ok () t)
    (hac : t.ac = (s.withAc 2 (joinWord false a)).ac) :
    exec .lmp s = .next (lmpEnds s (lmpCounted s a t)) := by
  have hcount : (s.withAc 2 (joinWord false a)).ac.get 1 ≠ 0 := hn
  have hleft : (lmpCounted s a t).ac.get 1 = 0 ↔ s.ac.get 1 = 1 := sub_eq_zero
  rw [exec_lmp_eq h ha]
  apply runInstr_ok
  unfold lmpLoop lmpEnds
  rw [run_bind_ok (run_getAc 1 _), if_neg hcount, run_bind_ok (run_lmpWord h hload hac), run_bind_ok (run_get _)]
  by_cases hone : s.ac.get 1 = 1
  · rw [if_pos (hleft.mpr hone), if_pos hone, run_advance]
  · have hmsb : ((lmpCounted s a t).ac.get 2).msb = false := msb_joinWord_succ (hlast.resolve_left hone)
    rw [if_neg (mt hleft.mp hone), if_neg hone, hmsb, if_neg Bool.false_ne_true, run_pure]

end

/-- Settles O54: the maps entry by entry, and LMP by the entry its word loads. -/
theorem lmpResult : Obligations.LmpResult := by
  unfold Obligations.LmpResult
  refine ⟨fun s c c' p p' e => ⟨selEntry_setSelEntry s c c' p p' e, setSelEntry_frame s c p e⟩,
    fun s a h ha => ⟨exec_lmp_none h ha, fun hn hlast h0 => ?_, fun hn hlast h0 h3 => ?_⟩⟩
  · have hload := run_loadEntry (s := s.withAc 2 (joinWord false a)) h0 (s.wordAt a)
    rw [exec_lmp_word h ha hn hlast hload (setSelEntry_ac _ _ _ _), setSelEntry_withAc, entryOfWord_eq]
    rfl
  · obtain ⟨e, hload⟩ := run_loadEntry_free (s := s.withAc 2 (joinWord false a)) h0 h3 (s.wordAt a)
    refine ⟨e, ?_⟩
    rw [exec_lmp_word h ha hn hlast hload (setSelEntry_ac _ _ _ _), setSelEntry_withAc]
    rfl

end Sys2Proof.Laws
end

section
/-!
Proof of O6. The console's start is one piece: the power-up bit falls, the self-test leaves memory with any values and no
errors, and what the self-test found and the panel decide between the prompt, a load and the flag.
-/

namespace Sys2Proof.Laws

set_option Elab.async false

open Sys2Proof.Machine

/-! ## The self-test of power-up (70_reset R680) -/

/-- The console has started, and its self-test has left memory so. -/
def consoleTested (s : State) (m : List Host.Cell) (f : List MemFault) (k : Nat) : State :=
  { enterConsole (cpuCommand .pulse s) with mem := m, memFaults := f, freeIdx := k }

/-- What follows the self-test: the automatic load of a locked machine that found no error (70_reset R704). -/
def loadIfLocked (s : State) : State :=
  if inConsole s && s.cfg.locked && decide (s.cfg.aplCode ≠ 0) then startAutoLoad s else s

theorem step_powerUp {s : State} (hrun : s.runState = .halted) (hpup : s.con.pup = true) (hin : s.inputs = []) :
    ∃ (m : List Host.Cell) (f : List MemFault) (k : Nat),
      step s = .next (loadIfLocked (nextError s.testErrors { consoleTested s m f k with testErrors := [] })) ∧
        ∀ x ∈ f, s.cfg.boards.words ≤ x.addr.toNat := by
  obtain ⟨m, f, k, htest, hfaults⟩ := selfTest_ok (enterConsole (cpuCommand .pulse s))
  refine ⟨m, f, k, ?_, hfaults⟩
  have hstep : step s = runInstr powerUpConsole s := by
    unfold step machineStep cpuStep
    simp only [hin, hrun, hpup, if_true]
  rw [hstep]
  apply runInstr_ok
  unfold powerUpConsole
  rw [run_bind_ok (run_modify _ s), run_bind_ok htest]
  rfl

/-- With no error announced the console prompts. -/
theorem nextError_consoleTested {s : State} (herr : s.testErrors = []) (m : List Host.Cell) (f : List MemFault) (k : Nat) :
    nextError s.testErrors { consoleTested s m f k with testErrors := [] } = consoleTested s m f k := by
  have hnone : { consoleTested s m f k with testErrors := [] } = consoleTested s m f k := by
    rw [← herr]
    rfl
  rw [hnone, herr]
  rfl

/-! ## The automatic load (70_reset R704) -/

/-- An unlocked panel, or one without a device, leaves the prompt. -/
theorem loadIfLocked_stays {s : State} (h : s.cfg.locked = false ∨ s.cfg.aplCode = 0) : loadIfLocked s = s := by
  unfold loadIfLocked
  obtain hlocked | hcode := h
  · rw [hlocked, Bool.and_false, Bool.false_and, if_neg Bool.false_ne_true]
  · rw [hcode, decide_eq_false (by simp), Bool.and_false, if_neg Bool.false_ne_true]

/-- While a self-test error is displayed there is no load. -/
theorem loadIfLocked_testError {s : State} {rest : List SelfTestError} (h : s.runState = .testError rest) :
    loadIfLocked s = s := by
  unfold loadIfLocked inConsole
  rw [h]
  rfl

theorem loadIfLocked_loads {s : State} (hrun : s.runState = .console) (hlocked : s.cfg.locked = true)
    (hcode : s.cfg.aplCode ≠ 0) : loadIfLocked s = startAutoLoad s := by
  unfold loadIfLocked inConsole
  rw [hrun, hlocked, decide_eq_true hcode]
  rfl

/-- A load from a device of its own starts with an I/O reset and ION zero (70_reset R702, R703). -/
theorem startLoad_device {code : DevCode} (h0 : code ≠ 0) (hcpu : code ≠ devCpu) (r : RunState) (s : State) :
    startLoad code r s =
      { ioReset (cpuCommand .pulse s) with ion := false, ionHold := .none, runState := r, xct := none } := by
  unfold startLoad
  rw [if_neg (by simpa using And.intro h0 hcpu)]

/-- The automatic load is by data channel or by programmed I/O, as the APL register says. -/
theorem startAutoLoad_eq (s : State) : startAutoLoad s =
    startLoad s.cfg.aplCode (if s.cfg.aplDch then .loadDch s.cfg.aplCode else .loadPio s.cfg.aplCode []) s := by
  unfold startAutoLoad
  split <;> rfl

/-! ## Waiting after an error (70_reset R718) -/

section
variable {s : State} {rest : List SelfTestError} (hrun : s.runState = .testError rest)
include hrun

theorem step_testError_waits (hin : s.inputs = []) : step s = .next s := by
  unfold step machineStep cpuStep
  simp only [hin, hrun]

/-- The BREAK key brings the next flag, or the prompt. -/
theorem step_testError_break {coming : List HostInput} (hin : s.inputs = .breakKey :: coming) :
    step s = .next (nextError rest { s with inputs := coming }) := by
  have hstep : step s = runInstr (modify breakEvent) { s with inputs := coming } := by
    unfold step machineStep
    rw [hin]
    rfl
  have hbreak : breakEvent { s with inputs := coming } = nextError rest { s with inputs := coming } := by
    unfold breakEvent
    simp only [hrun]
  rw [hstep, ← hbreak]
  exact runInstr_ok (run_modify _ _)

end

/-- Settles O6: the start by what the self-test found and what the panel says, then the wait by the next input. -/
theorem powerUpEntersConsole : Obligations.PowerUpEntersConsole := by
  unfold Obligations.PowerUpEntersConsole
  refine ⟨fun s hrun hpup hin => ?_, fun s rest hrun => ⟨step_testError_waits hrun, fun coming hin => ⟨?_, ?_⟩⟩⟩
  · obtain ⟨m, f, k, hstep, hfaults⟩ := step_powerUp hrun hpup hin
    refine ⟨fun herr hpanel => ?_, fun herr hlocked hcode hcpu => ?_, fun e rest herr => ?_⟩
    · rw [nextError_consoleTested herr, loadIfLocked_stays (s := consoleTested s m f k) hpanel] at hstep
      exact ⟨_, hstep, rfl, rfl, hfaults, rfl⟩
    · rw [nextError_consoleTested herr, loadIfLocked_loads (s := consoleTested s m f k) rfl hlocked hcode,
        startAutoLoad_eq, startLoad_device (code := (consoleTested s m f k).cfg.aplCode) hcode hcpu] at hstep
      exact ⟨_, hstep, rfl, rfl, hfaults, rfl⟩
    · rw [herr, loadIfLocked_testError rfl] at hstep
      exact ⟨_, hstep, rfl, hfaults, rfl⟩
  · rintro rfl
    exact step_testError_break hrun hin
  · rintro e es rfl
    exact step_testError_break hrun hin

end Sys2Proof.Laws
end

section
/-!
Proof of O55, and what O57 needs of LDA, STA, ELDA and ESTA: each ends as its address and its data reference say, whether these
go through the user map, are unmapped, or are the single reference that waits (47_map R575, R576, R598).
-/

namespace Sys2Proof.Laws

set_option Elab.async false

open Sys2Proof.Machine

/-! ## The translation (47_map R572 to R578) -/

theorem toNat_logicalPage (a : Addr) : (logicalPage a).toNat = a.toNat / 1024 := by
  have ha := a.isLt
  rw [logicalPage, BitVec.extractLsb'_toNat, Nat.shiftRight_eq_div_pow]
  omega

/-- The entry for an address is the one its page numbers. -/
theorem userEntry_listed (s : State) (a : Addr) :
    (s.umap.get s.ms.nme).toList[a.toNat / 1024]? = some (userEntry s a) := by
  have hpage : a.toNat / 1024 < 32 := by
    have ha := a.isLt
    omega
  have hentry : userEntry s a = (s.umap.get s.ms.nme)[a.toNat / 1024] := by
    unfold userEntry PageMap.entry Vector.get
    simp [toNat_logicalPage]
  rw [hentry]
  simp [hpage]

theorem invalid_iff (e : MapEntry) : e.invalid = true ↔ e.wp = true ∧ e.ppage = 0o1777 := by
  rw [MapEntry.invalid, Bool.and_eq_true, decide_eq_true_iff]

theorem writeProtected_iff (s : State) (e : MapEntry) : writeProtected s e = true ↔ s.ms.wpe = true ∧ e.wp = true := by
  rw [writeProtected, Bool.and_eq_true]

/-! ## How a load and a store end -/

section
variable {s t u : State} {ac : AcNo} {len : Nat} {ind : Bool} {ia e : Addr}
  (hres : resolveBy dataRead ind ia s = .ok e t)
include hres

theorem runInstr_loadFrom {v : Word} (hread : dataRead e t = .ok v u) :
    runInstr (loadFrom ac len ind ia) s = .next ((u.withAc ac v).next len) := by
  apply runInstr_ok
  unfold loadFrom
  rw [run_bind_ok hres, run_bind_ok hread, run_bind_ok (run_setAc ac v u), run_advance]

theorem runInstr_storeTo (hwrite : dataWrite e (t.ac.get ac) t = .ok () u) :
    runInstr (storeTo ac len ind ia) s = .next (u.next len) := by
  apply runInstr_ok
  unfold storeTo
  rw [run_bind_ok hres, run_bind_ok (run_getAc ac t), run_bind_ok hwrite, run_advance]

/-- The operand of a mapped reference. -/
theorem references_mappedOperand (h : UserQuiet t) (he : t.mapped e = true) :
    runInstr (loadFrom ac len ind ia) s = .next ((t.referred.withAc ac (t.mappedWord e)).next len) ∧
      (writeProtected t (userEntry t e) = false →
        runInstr (storeTo ac len ind ia) s = .next ((t.withMappedWord e (t.ac.get ac)).next len)) :=
  ⟨runInstr_loadFrom hres (run_dataRead_mapped h he), fun hw =>
    runInstr_storeTo hres ((dataWrite_eq_memWrite h.noCycle e _).trans (run_memWrite_mapped h.quiet he hw _))⟩

/-- The operand of supervisor mode. -/
theorem references_supervisorOperand (h : Supervisor t) :
    runInstr (loadFrom ac len ind ia) s = .next ((t.withAc ac (t.wordAt e)).next len) ∧
      runInstr (storeTo ac len ind ia) s = .next ((t.withWord e (t.ac.get ac)).next len) :=
  ⟨runInstr_loadFrom hres (run_dataRead h e), runInstr_storeTo hres (run_dataWrite h e _)⟩

end

theorem run_resolve_direct (rd : Addr → M Word) (ia : Addr) (s : State) : resolveBy rd false ia s = .ok ia s := rfl

/-- One pointer of a chain, with the state `u` its read and the enable after it leave (20_memory R114, 47_map R601). -/
theorem run_chain_step {rd : Addr → M Word} {s t u : State} {level : Nat} {a : Addr} {p : Word} (n : Nat)
    (hlim : indirectLimit s level = false) (hread : rd a s = .ok p t) (henable : completeEnable t = .ok () u) :
    chain rd (n + 1) level a s =
      if p.msb then chain rd n (level + 1) (p.setWidth 15) u else .ok (p.setWidth 15) u := by
  conv_lhs => unfold chain
  rw [run_bind_ok (run_get s), if_neg (by simp [hlim]), run_bind_ok hread, run_bind_ok henable]
  split <;> rfl

theorem indirectLimit_unmapped {s : State} (hoff : s.mapOn = false) (level : Nat) : indirectLimit s level = false := by
  rw [indirectLimit, hoff, Bool.false_and, Bool.false_and]

/-! ## References with the map off, whatever page 31 stands for -/

/-- With the map off and no single cycle waiting a data write is one of its physical word. -/
theorem run_dataWrite_unmapped {s : State} (hoff : s.mapOn = false) (hsc : s.scPending = false) (hq : Quiet s) (a : Addr)
    (v : Word) : dataWrite a v s = physWrite (unmappedPhys s a) v s := by
  rw [dataWrite_eq_memWrite hsc]
  unfold memWrite memWriteBy cpuWrite
  rw [run_bind_ok (run_get s), if_neg (by simp [hoff]), run_bind_ok (run_dchService hq)]

/-- ELDA and ESTA of a direct address: through the page-31 register or not, in installed memory or beyond (47_map R575,
R581). -/
theorem direct_unmapped {s : State} (hoff : s.mapOn = false) (hsc : s.scPending = false) (hq : Quiet s) (ac : AcNo)
    (len : Nat) (ia : Addr) {pa : Nat} (hpa : unmappedPhys s ia = pa) :
    (pa < s.cfg.boards.words →
      runInstr (loadFrom ac len false ia) s = .next ((s.withAc ac (Memory.readWord s.mem pa)).next len) ∧
      runInstr (storeTo ac len false ia) s =
        .next (State.next { s with mem := Memory.writeWord s.mem pa (s.ac.get ac) } len)) ∧
    (s.cfg.boards.words ≤ pa →
      (∃ w : Word, runInstr (loadFrom ac len false ia) s =
        .next (State.next { s.withAc ac w with freeIdx := s.freeIdx + 1 } len)) ∧
      runInstr (storeTo ac len false ia) s = .next (s.next len)) := by
  have hres := run_resolve_direct dataRead ia s
  have hread : dataRead ia s = physRead pa s := hpa ▸ run_dataRead_unmapped hoff hsc hq ia
  have hwrite : dataWrite ia (s.ac.get ac) s = physWrite pa (s.ac.get ac) s :=
    hpa ▸ run_dataWrite_unmapped hoff hsc hq ia _
  refine ⟨fun hin => ⟨?_, ?_⟩, fun hout => ⟨⟨(Config.free64 s.freeIdx).setWidth 16, ?_⟩, ?_⟩⟩
  · exact runInstr_loadFrom hres (hread.trans (run_physRead hin (quiet_findFault hq pa)))
  · exact runInstr_storeTo hres (hwrite.trans (run_physWrite_quiet hq hin _))
  · exact runInstr_loadFrom hres (hread.trans (run_physRead_beyond (Nat.not_lt.mpr hout)))
  · exact runInstr_storeTo hres (hwrite.trans (run_physWrite_beyond (Nat.not_lt.mpr hout) _))

/-! ## User mode (47_map R576) -/

theorem user_references {s : State} (h : UserQuiet s) (ac : AcNo) (len : Nat) {ind : Bool} {ia e : Addr}
    (hp : ind = true → s.mapPending = false) (he : s.mappedAt ind ia = some e) (hmapped : s.mapped e = true) :
    runInstr (loadFrom ac len ind ia) s = .next ((s.referred.withAc ac (s.mappedWord e)).next len) ∧
      (writeProtected s (userEntry s e) = false →
        runInstr (storeTo ac len ind ia) s = .next ((s.withMappedWord e (s.ac.get ac)).next len)) := by
  cases ind with
  | false =>
    obtain rfl : ia = e := Option.some.inj he
    exact references_mappedOperand (run_resolve_direct dataRead ia s) h hmapped
  | true =>
    have hres : resolveBy dataRead true ia s = .ok e s.referred := run_chain_ends _ 0 h (hp rfl) he
    exact references_mappedOperand (t := s.referred) hres h hmapped

/-! ## The single cycle (47_map R598) -/

section
variable {s : State} (hsc : s.scPending = true)
include hsc

theorem run_dataRead_single (hq : Quiet s) {a : Addr} (hv : (userEntry s a).invalid = false)
    (hin : entryPhys (userEntry s a) a < s.cfg.boards.words) : dataRead a s = .ok (s.mappedWord a) s.singled := by
  unfold dataRead singleCycleDone
  rw [run_bind_ok (run_get s), if_pos hsc, run_bind_ok (run_modify _ s), if_neg (by simp [hv])]
  exact run_cpuRead (s := s.singled) hq hin

theorem run_dataRead_single_invalid {a : Addr} (hv : (userEntry s a).invalid = true) :
    dataRead a s = drawFree 16 s.singled := by
  unfold dataRead singleCycleDone
  rw [run_bind_ok (run_get s), if_pos hsc, run_bind_ok (run_modify _ s), if_pos hv]
  rfl

theorem run_dataWrite_single (hq : Quiet s) {a : Addr} (hv : (userEntry s a).invalid = false)
    (hw : writeProtected s (userEntry s a) = false) (hin : entryPhys (userEntry s a) a < s.cfg.boards.words) (v : Word) :
    dataWrite a v s = .ok () { s.singled with mem := Memory.writeWord s.mem (entryPhys (userEntry s a) a) v } := by
  unfold dataWrite singleCycleDone
  rw [run_bind_ok (run_get s), if_pos hsc, run_bind_ok (run_modify _ s), if_neg (by simp [hv, hw])]
  exact run_cpuWrite (s := s.singled) hq hin v

/-- A single-cycle write to an invalid or protected page is discarded (D31). -/
theorem run_dataWrite_single_discarded {a : Addr}
    (hd : (userEntry s a).invalid = true ∨ writeProtected s (userEntry s a) = true) (v : Word) :
    dataWrite a v s = .ok () s.singled := by
  unfold dataWrite singleCycleDone
  rw [run_bind_ok (run_get s), if_pos hsc, run_bind_ok (run_modify _ s), if_pos (by simpa using hd)]
  rfl

theorem single_direct (hq : Quiet s) (ac : AcNo) (len : Nat) (ia : Addr) :
    ((userEntry s ia).invalid = false → entryPhys (userEntry s ia) ia < s.cfg.boards.words →
      runInstr (loadFrom ac len false ia) s = .next ((s.singled.withAc ac (s.mappedWord ia)).next len) ∧
      (writeProtected s (userEntry s ia) = false → runInstr (storeTo ac len false ia) s = .next (State.next
        { s.singled with mem := Memory.writeWord s.mem (entryPhys (userEntry s ia) ia) (s.ac.get ac) } len))) ∧
    ((userEntry s ia).invalid = true → ∃ w : Word, runInstr (loadFrom ac len false ia) s =
      .next (State.next { s.singled.withAc ac w with freeIdx := s.freeIdx + 1 } len)) ∧
    ((userEntry s ia).invalid = true ∨ writeProtected s (userEntry s ia) = true →
      runInstr (storeTo ac len false ia) s = .next (s.singled.next len)) := by
  have hres := run_resolve_direct dataRead ia s
  refine ⟨fun hv hin => ⟨?_, fun hw => ?_⟩, fun hv => ⟨(Config.free64 s.freeIdx).setWidth 16, ?_⟩, fun hd => ?_⟩
  · exact runInstr_loadFrom hres (run_dataRead_single hsc hq hv hin)
  · exact runInstr_storeTo hres (run_dataWrite_single hsc hq hv hw hin _)
  · exact runInstr_loadFrom hres (run_dataRead_single_invalid hsc hv)
  · exact runInstr_storeTo hres (run_dataWrite_single_discarded hsc hd _)

end

/-- A chain that ends within some words ends so within more. -/
theorem follow_mono (s : State) {e : Addr} : ∀ (n m : Nat) (a : Addr), n ≤ m → s.follow n a = some e → s.follow m a = some e
  | 0, _, _, _, he => by cases he
  | n + 1, 0, _, hle, _ => by omega
  | n + 1, m + 1, a, hle, he => by
    unfold State.follow at he ⊢
    split at he
    · next hind => rw [if_pos hind, follow_mono s n m _ (by omega) he]
    · next hind => rw [if_neg hind, he]

section
variable {s : State} (hsc : s.scPending = true) (hoff : s.mapOn = false) (hp : s.mapPending = false)
  (hp31 : s.p31 = Config.page31Reset) (hq : Quiet s)
include hsc hoff hp hp31 hq

/-- The first pointer is the single mapped reference, the rest of the chain that of supervisor mode. -/
theorem run_resolve_single {ia e : Addr} (hv : (userEntry s ia).invalid = false)
    (hin : entryPhys (userEntry s ia) ia < s.cfg.boards.words) {n : Nat} (hn : n < Config.chainFuel)
    (he : (if (s.mappedWord ia).msb then s.follow n ((s.mappedWord ia).setWidth 15)
      else some ((s.mappedWord ia).setWidth 15)) = some e) :
    resolveBy dataRead true ia s = .ok e s.singled := by
  have hsuper : Supervisor s.singled := ⟨hoff, hp, rfl, hp31, hq⟩
  have hfirst := run_chain_step 65537 (indirectLimit_unmapped hoff 0) (run_dataRead_single hsc hq hv hin)
    (run_completeEnable hsuper)
  unfold resolveBy
  rw [if_pos rfl, show Config.chainFuel = 65537 + 1 from rfl, hfirst]
  split at he
  · next hind =>
    have hle : n ≤ 65537 := by
      unfold Config.chainFuel at hn
      omega
    have hrest : s.singled.follow 65537 ((s.mappedWord ia).setWidth 15) = some e := by
      rw [follow_congr (s := s) (t := s.singled) rfl]
      exact follow_mono s n 65537 _ hle he
    rw [if_pos hind, run_chain hsuper (run_dataRead hsuper), hrest]
  · next hind => rw [if_neg hind, Option.some.inj he]

theorem single_indirect (ac : AcNo) (len : Nat) {n : Nat} {ia e : Addr} (hv : (userEntry s ia).invalid = false)
    (hin : entryPhys (userEntry s ia) ia < s.cfg.boards.words) (hn : n < Config.chainFuel)
    (he : (if (s.mappedWord ia).msb then s.follow n ((s.mappedWord ia).setWidth 15)
      else some ((s.mappedWord ia).setWidth 15)) = some e) :
    runInstr (loadFrom ac len true ia) s = .next ((s.singled.withAc ac (s.wordAt e)).next len) ∧
      runInstr (storeTo ac len true ia) s = .next ((s.singled.withWord e (s.ac.get ac)).next len) :=
  references_supervisorOperand (run_resolve_single hsc hoff hp hp31 hq hv hin hn he) ⟨hoff, hp, rfl, hp31, hq⟩

end

/-- Settles O55: the translation by its definitions; ELDA and ESTA through the physical word; then the four instructions as one
load and one store, in user mode, in a direct single cycle and in one of a pointer. -/
theorem mappedReferences : Obligations.MappedReferences := by
  unfold Obligations.MappedReferences
  refine ⟨fun s a e => ⟨userEntry_listed s a, rfl, rfl, invalid_iff e, writeProtected_iff s e⟩,
    fun s ac xa hoff hsc hq hind => ?_, fun s ac sa xa hq => ?_⟩
  · intro a pa
    simp only [exec_elda_eq, exec_esta_eq, hind]
    exact direct_unmapped hoff hsc hq ac 2 (extIa s xa) (unmappedPhys_eq_ite s _)
  · intro user direct indirect
    refine ⟨fun e hon hsc hp he hm => ?_, fun e hon hsc hp he hm => ?_, fun hind hsc _ => ?_, fun hind hsc _ => ?_,
      fun hind n e hsc hoff hp hp31 hv hin => ?_, fun hind n e hsc hoff hp hp31 hv hin => ?_⟩
    · exact user_references ⟨hon, hsc, hq⟩ ac 1 hp he hm
    · exact user_references ⟨hon, hsc, hq⟩ ac 2 hp he hm
    · rw [exec_lda_eq, exec_sta_eq, hind]
      exact single_direct hsc hq ac 1 _
    · rw [exec_elda_eq, exec_esta_eq, hind]
      exact single_direct hsc hq ac 2 _
    · rw [exec_lda_eq, exec_sta_eq, hind]
      exact single_indirect hsc hoff hp hp31 hq ac 1 hv hin
    · rw [exec_elda_eq, exec_esta_eq, hind]
      exact single_indirect hsc hoff hp hp31 hq ac 2 hv hin

end Sys2Proof.Laws
end

section
/-!
Proof of O57. A waiting user enable changes no reference before the one that completes it, so that a return does what it does
in supervisor mode and turns the map on at its end; a pointer read turns it on for what follows.
-/

namespace Sys2Proof.Laws

set_option Elab.async false

open Sys2Proof.Machine

/-! ## Instructions that end with the enable (47_map R601) -/

/-- The state with a user enable waiting. -/
def withPending (s : State) : State := { s with mapPending := true }

theorem run_completeEnable_pending {s : State} (h : s.mapPending = true) : completeEnable s = .ok () s.enabled := by
  unfold completeEnable State.enabled
  simp [h]

/-- From supervisor mode the piece goes on there, and a waiting enable makes no difference to it. -/
def IgnoresPending {α : Type} (m : M α) : Prop :=
  ∀ s, Supervisor s → ∃ a t, m s = .ok a t ∧ Supervisor t ∧ m (withPending s) = .ok a (withPending t)

/-- From supervisor mode the piece goes on to its end, where a waiting enable takes effect. -/
def EndsEnabled (m : M Unit) : Prop :=
  ∀ s, Supervisor s → ∃ t, m s = .ok () t ∧ m (withPending s) = .ok () t.enabled

theorem IgnoresPending.bind {α β : Type} {m : M α} {f : α → M β} (hm : IgnoresPending m)
    (hf : ∀ a, IgnoresPending (f a)) : IgnoresPending (m >>= f) := by
  intro s hs
  obtain ⟨a, t, hrun, ht, hwaits⟩ := hm s hs
  rw [run_bind_ok hrun, run_bind_ok hwaits]
  exact hf a t ht

theorem IgnoresPending.ends {α : Type} {m : M α} {f : α → M Unit} (hm : IgnoresPending m)
    (hf : ∀ a, EndsEnabled (f a)) : EndsEnabled (m >>= f) := by
  intro s hs
  obtain ⟨a, t, hrun, ht, hwaits⟩ := hm s hs
  rw [run_bind_ok hrun, run_bind_ok hwaits]
  exact hf a t ht

/-- An instruction that does so from supervisor mode does the same with an enable waiting, and completes it. -/
theorem EndsEnabled.runInstr {m : M Unit} (hm : EndsEnabled m) {s t : State} (hs : Supervisor s)
    (hrun : runInstr m s = .next t) : runInstr m (withPending s) = .next t.enabled := by
  obtain ⟨u, hends, hwaits⟩ := hm s hs
  rw [runInstr_ok hends] at hrun
  obtain rfl : u = t := Host.Outcome.next.inj hrun
  exact runInstr_ok hwaits

theorem ignoresPending_pure {α : Type} (a : α) : IgnoresPending (pure a : M α) := fun s hs => ⟨a, s, rfl, hs, rfl⟩

theorem ignoresPending_getAc (i : AcNo) : IgnoresPending (getAc i) := fun s hs => ⟨_, s, rfl, hs, rfl⟩

theorem ignoresPending_setAc (i : AcNo) (v : Word) : IgnoresPending (setAc i v) :=
  fun s hs => ⟨(), s.withAc i v, rfl, hs, rfl⟩

theorem ignoresPending_setCry (c : Bool) : IgnoresPending (setCry c) := fun _ hs => ⟨(), _, rfl, hs, rfl⟩

theorem run_memRead_pending {s : State} (h : Unmapped s) (hq : Quiet s) (a : Addr) : memRead a s = .ok (s.wordAt a) s :=
  (memRead_unmapped h a).trans (run_cpuRead hq (addr_installed s a))

theorem ignoresPending_memRead (a : Addr) : IgnoresPending (memRead a) := by
  intro s hs
  obtain ⟨-, -, -, -, hq⟩ := id hs
  have hun := unmapped_of_supervisor hs
  exact ⟨s.wordAt a, s, run_memRead hs a, hs,
    run_memRead_pending (s := withPending s) hun hq a⟩

theorem ignoresPending_memWrite (a : Addr) (v : Word) : IgnoresPending (memWrite a v) := by
  intro s hs
  obtain ⟨-, -, -, -, hq⟩ := id hs
  have hun := unmapped_of_supervisor hs
  have hwaits : memWrite a v (withPending s) = .ok () (withPending (s.withWord a v)) :=
    (memWriteBy_unmapped (s := withPending s) hun cpuWrite a v).trans
      (run_cpuWrite (s := withPending s) hq (addr_installed s a) v)
  exact ⟨(), _, run_memWrite hs a v, supervisor_withWord hs a v, hwaits⟩

/-- What every return ends with. -/
theorem endsEnabled_completeAt (a : Addr) : EndsEnabled (do completeEnable; setPc a) := by
  intro s hs
  refine ⟨s.goto a, ?_, ?_⟩
  · rw [run_bind_ok (run_completeEnable hs), run_setPc]
  · rw [run_bind_ok (run_completeEnable_pending (s := withPending s) rfl), run_setPc]
    rfl

/-! ## The returns (44_stack R443, R444, R446, R447) -/

theorem ignoresPending_pop : IgnoresPending pop :=
  (ignoresPending_memRead _).bind fun _ => (ignoresPending_memRead _).bind fun _ =>
    (ignoresPending_memWrite _ _).bind fun _ => ignoresPending_pure _

/-- An accumulator popped. -/
theorem IgnoresPending.popAc {α : Type} {m : M α} (hm : IgnoresPending m) (i : AcNo) :
    IgnoresPending (do let v ← pop; setAc i v; m) :=
  ignoresPending_pop.bind fun v => (ignoresPending_setAc i v).bind fun _ => hm

theorem ignoresPending_popBlock : IgnoresPending popBlock := by
  have hacs : IgnoresPending popAcs :=
    .popAc (.popAc (.popAc (ignoresPending_pop.bind fun v => ignoresPending_setAc 0 v) 1) 2) 3
  exact ignoresPending_pop.bind fun _ => (ignoresPending_setCry _).bind fun _ => hacs.bind fun _ => ignoresPending_pure _

/-- An accumulator loaded from memory on the way to such an end. -/
theorem EndsEnabled.loadAc {m : M Unit} (hm : EndsEnabled m) (i : AcNo) (a : Addr) :
    EndsEnabled (do let v ← memRead a; setAc i v; m) :=
  (ignoresPending_memRead a).ends fun v => (ignoresPending_setAc i v).ends fun _ => hm

/-- A word of memory copied on the way to such an end. -/
theorem EndsEnabled.copyWord {m : M Unit} (hm : EndsEnabled m) (a b : Addr) :
    EndsEnabled (do let v ← memRead a; memWrite b v; m) :=
  (ignoresPending_memRead a).ends fun v => (ignoresPending_memWrite b v).ends fun _ => hm

section
variable {s t : State} (h : Supervisor s)
include h

theorem exec_popj_pending (hrun : exec .popj s = .next t) : exec .popj (withPending s) = .next t.enabled :=
  EndsEnabled.runInstr (ignoresPending_pop.ends fun _ => endsEnabled_completeAt _) h hrun

theorem exec_popb_pending (hrun : exec .popb s = .next t) : exec .popb (withPending s) = .next t.enabled :=
  EndsEnabled.runInstr (ignoresPending_popBlock.ends fun _ => endsEnabled_completeAt _) h hrun

theorem exec_rtn_pending (hrun : exec .rtn s = .next t) : exec .rtn (withPending s) = .next t.enabled :=
  EndsEnabled.runInstr
    (.copyWord (ignoresPending_popBlock.ends fun _ => (ignoresPending_getAc 3).ends fun a3 =>
      (ignoresPending_memWrite fpLoc a3).ends fun _ => endsEnabled_completeAt _) fpLoc spLoc) h hrun

theorem exec_rstr_pending (hrun : exec .rstr s = .next t) : exec .rstr (withPending s) = .next t.enabled := by
  refine EndsEnabled.runInstr ((ignoresPending_memRead spLoc).ends fun spw => (ignoresPending_memRead _).ends fun w =>
    (ignoresPending_setCry _).ends fun _ => ?_) h hrun
  have hcopies := (((endsEnabled_completeAt (w.setWidth 15)).copyWord (spw.setWidth 15 - 8) spLoc).copyWord
    (spw.setWidth 15 - 7) fpLoc).copyWord (spw.setWidth 15 - 6) slLoc
  exact ((((hcopies.copyWord _ sfaLoc).loadAc 0 _).loadAc 1 _).loadAc 2 _).loadAc 3 _

end

/-! ## The first pointer (20_memory R114) -/

/-- JMP goes where its field resolves to. -/
theorem exec_jmp {s t : State} {ea : ShortAddr} {e : Addr} (hres : resolve ea.ind (shortIa s ea) s = .ok e t) :
    exec (.jmp ea) s = .next (t.goto e) := by
  change execJmp ea s = _
  unfold execJmp shortEa
  apply runInstr_ok
  rw [bind_assoc, run_bind_ok (run_get s), run_bind_ok hres, run_setPc]

/-- The map off, an enable waiting, and memory quiet. -/
def EnableWaits (s : State) : Prop := Unmapped s ∧ s.mapPending = true ∧ Quiet s

section
variable {s : State} (h : EnableWaits s)
include h

/-- After the enable references are those of user mode. -/
theorem EnableWaits.enabled : UserQuiet s.enabled := by
  obtain ⟨⟨-, hsc, -⟩, -, hq⟩ := h
  exact ⟨rfl, hsc, hq⟩

/-- The pointer read that completes the enable, by an ordinary or a data read. -/
theorem run_resolve_enables {rd : Addr → M Word} (ia : Addr) (hrd : rd ia s = memRead ia s) :
    resolveBy rd true ia s =
      if (s.wordAt ia).msb then chain rd 65537 1 ((s.wordAt ia).setWidth 15) s.enabled
      else .ok ((s.wordAt ia).setWidth 15) s.enabled := by
  obtain ⟨hun, hp, hq⟩ := h
  obtain ⟨hoff, -⟩ := id hun
  unfold resolveBy
  rw [if_pos rfl, show Config.chainFuel = 65537 + 1 from rfl]
  exact run_chain_step 65537 (indirectLimit_unmapped hoff 0) (hrd.trans (run_memRead_pending hun hq ia))
    (run_completeEnable_pending hp)

/-- The pointer after it is a mapped reference. -/
theorem run_resolve_secondPointer {ia q : Addr} (hfirst : (s.wordAt ia).msb = true) (hq : (s.wordAt ia).setWidth 15 = q)
    (hm : s.enabled.mapped q = true) (hlast : (s.enabled.mappedWord q).msb = false) :
    resolve true ia s = .ok ((s.enabled.mappedWord q).setWidth 15) s.enabled.referred := by
  have hlim : indirectLimit s.enabled 1 = false := indirectLimit_eq_false (.inl (by decide))
  have hsecond := run_chain_step 65536 hlim (run_memRead_mapped h.enabled.quiet hm)
    (run_completeEnable_none (s := s.enabled.referred) rfl)
  unfold resolve
  rw [run_resolve_enables h ia rfl, if_pos hfirst, hq, hsecond, if_neg (by simp [hlast])]

/-- LDA and STA through one pointer: the operand is a mapped reference. -/
theorem references_afterEnable (ac : AcNo) (len : Nat) {ia e : Addr} (hp : (s.wordAt ia).msb = false)
    (he : (s.wordAt ia).setWidth 15 = e) (hm : s.enabled.mapped e = true) :
    runInstr (loadFrom ac len true ia) s =
        .next ((s.enabled.referred.withAc ac (s.enabled.mappedWord e)).next len) ∧
      (writeProtected s.enabled (userEntry s.enabled e) = false →
        runInstr (storeTo ac len true ia) s = .next ((s.enabled.withMappedWord e (s.ac.get ac)).next len)) := by
  have hres : resolveBy dataRead true ia s = .ok e s.enabled := by
    obtain ⟨⟨-, hsc, -⟩, -⟩ := id h
    rw [run_resolve_enables h ia (dataRead_eq_memRead hsc ia), if_neg (by simp [hp]), he]
  exact references_mappedOperand hres h.enabled hm

end

/-- Settles O57: the indirect references by their first pointer, the returns by what they do in supervisor mode. -/
theorem pendingEnable : Obligations.PendingEnable := by
  unfold Obligations.PendingEnable
  intro s ac ea e hoff hp hsc hp31 hq p on b sp w s1 s2 s3 s4
  have h : EnableWaits s := ⟨⟨hoff, hsc, hp31⟩, hp, hq⟩
  have hsuper : Supervisor { s with mapPending := false } := ⟨hoff, rfl, hsc, hp31, hq⟩
  have hs : withPending { s with mapPending := false } = s := by
    unfold withPending
    rw [← hp]
  refine ⟨fun hind => exec_jmp ?_, fun hind hmsb => exec_jmp ?_, fun hind hmsb hm hlast => exec_jmp ?_,
    fun hind hmsb he hm => ?_, ?_, ?_, ?_, ?_⟩
  · rw [hind]
    rfl
  · have hmsb : (s.wordAt (shortIa s ea)).msb = false := hmsb
    rw [hind, resolve, run_resolve_enables h _ rfl, hmsb]
    rfl
  · rw [hind]
    exact run_resolve_secondPointer h hmsb rfl hm hlast
  · rw [exec_lda_eq, exec_sta_eq, hind]
    exact references_afterEnable h ac 1 hmsb he hm
  · have hrun := exec_popj_pending hsuper (exec_popj hsuper)
    rwa [hs] at hrun
  · have hrun := exec_popb_pending hsuper (exec_popb hsuper)
    rwa [hs] at hrun
  · have hrun := exec_rtn_pending hsuper (exec_rtn hsuper)
    rwa [hs] at hrun
  · have hrun := exec_rstr_pending hsuper (exec_rstr hsuper)
    rwa [hs] at hrun

end Sys2Proof.Laws
end
